-- ==== Sys2Proof/Word.lean ====
section
/-! DEFINITION. The two word widths of the block (spec 00_scope.md R6, R63). Byte order and field helpers are in Machine/Bytes.lean. -/

namespace Sys2Proof

/-- A byte, 8 bits (00_scope.md R6). -/
abbrev Byte := BitVec 8

/-- A 16-bit quantity: the CRC accumulator, an address, a quantity, a register word (R5, R13). -/
abbrev Word16 := BitVec 16

end Sys2Proof
end

