-- ==== Sys2Proof/Machine/Bytes.lean ====
section
/-! DEFINITION. Byte order, byte sequences and the two buffer accesses of the notation (00_scope.md R6, R7; 20_memory.md R32, R33, R39). -/

namespace Sys2Proof.Machine

/-- `hi8(v) = v[15:8]` (00_scope.md R6). -/
def hi8 (v : Word16) : Byte := v.extractLsb' 8 8

/-- `lo8(v) = v[7:0]` (00_scope.md R6). -/
def lo8 (v : Word16) : Byte := v.extractLsb' 0 8

/-- `BE16(hi, lo) = hi * 256 + lo` (00_scope.md R6). -/
def be16 (hi lo : Byte) : Word16 := hi ++ lo

/-- `BE16bytes(v)`: a payload field, high byte first (20_memory.md R32). -/
def be16Bytes (v : Word16) : List Byte := [hi8 v, lo8 v]

/-- The CRC trailer, low byte first (20_memory.md R33). -/
def trailerBytes (c : Word16) : List Byte := [lo8 c, hi8 c]

/-- The trailer as a number, `frame[len-2] + 256 * frame[len-1]` (20_memory.md R33). -/
def trailerWord (low high : Byte) : Word16 := high ++ low

/-- `signed16(v)`: `v` if `v <= 32767`, else `v - 65536` (00_scope.md R6). -/
def signed16 (v : Word16) : Int := if v.toNat ≤ 32767 then (v.toNat : Int) else (v.toNat : Int) - 65536

/-- `MemRead(buf + k, n)`: the bytes at offsets `k` to `k + n - 1`; no value outside the buffer (00_scope.md R7, 20_memory.md R39). -/
def memRead (buf : List Byte) (k n : Nat) : Option (List Byte) :=
  if k + n ≤ buf.length then some ((buf.drop k).take n) else none

/-- `MemWrite(buf + k, n, s)` with `n = len(s)`: stores `s` at offset `k`, which is inside the buffer or at its end (00_scope.md R7). -/
def memWrite (buf : List Byte) (k : Nat) (s : List Byte) : List Byte :=
  buf.take k ++ s ++ buf.drop (k + s.length)

/-- Big-endian words in sequence (30_encoding.md R57). -/
def bytesOfWords : List Word16 → List Byte
  | [] => []
  | v :: vs => hi8 v :: lo8 v :: bytesOfWords vs

/-- The words of an even number of big-endian bytes; none for an odd number. -/
def wordsOfBytes : List Byte → Option (List Word16)
  | [] => some []
  | [_] => none
  | h :: l :: rest => (wordsOfBytes rest).map (be16 h l :: ·)

/-- A received or built frame as its body, `frame[0 .. len-3]`, and its trailer read low byte first
(41_frame_codec.md R105, R108); none below two bytes. -/
def splitTrailer : List Byte → Option (List Byte × Word16)
  | [] => none
  | [_] => none
  | [low, high] => some ([], trailerWord low high)
  | b :: b' :: b'' :: rest => (splitTrailer (b' :: b'' :: rest)).map fun p => (b :: p.1, p.2)

end Sys2Proof.Machine
end

