-- ==== Sys2Proof/Machine/Crc.lean ====
section
/-! DEFINITION. The CRC16 generator, bit for bit (40_crc.md): the fold of R84, and the same computation on the registers CRC, BYTEIDX and BITCNT (10_state.md R13, R14). -/

namespace Sys2Proof.Machine

/-- CRC_INIT (00_scope.md R5, 40_crc.md R81). -/
def crcInit : Word16 := 0xFFFF

/-- CRC_POLY (00_scope.md R5). -/
def crcPoly : Word16 := 0xA001

/-- Absorb a byte into the low 8 bits (40_crc.md R82). -/
def crcAbsorb (c : Word16) (b : Byte) : Word16 := c ^^^ b.setWidth 16

/-- The bit step: bit 0 is read before the shift and selects the XOR (40_crc.md R83). -/
def crcBitStep (c : Word16) : Word16 :=
  if c.getLsbD 0 then (c >>> 1) ^^^ crcPoly else c >>> 1

/-- `n` bit steps. -/
def crcBitSteps : Nat → Word16 → Word16
  | 0, c => c
  | n + 1, c => crcBitSteps n (crcBitStep c)

/-- `step(c, b)`: absorb, then exactly 8 bit steps (40_crc.md R84). -/
def crcByteStep (c : Word16) (b : Byte) : Word16 := crcBitSteps 8 (crcAbsorb c b)

/-- The left fold over the bytes from a given accumulator (40_crc.md R84; `CRC16_0` of R87 is `crcFrom 0`). -/
def crcFrom (c : Word16) (bytes : List Byte) : Word16 := bytes.foldl crcByteStep c

/-- `CRC16(bytes)` (40_crc.md R80). -/
def crc16 (bytes : List Byte) : Word16 := crcFrom crcInit bytes

/-- The generator's registers while a computation runs (10_state.md R13, R14). -/
structure CrcGen where
  crc : Word16
  byteIdx : Nat
  bitCnt : Nat
deriving DecidableEq, Repr

/-- Initialise: CRC (40_crc.md R81), BYTEIDX at the first byte and BITCNT with no iteration done (10_state.md R14, R23; with no byte to absorb, log 27). -/
def CrcGen.start : CrcGen := { crc := crcInit, byteIdx := 0, bitCnt := 0 }

/-- One bit step on the registers (40_crc.md R83); BITCNT counts it (10_state.md R14). -/
def CrcGen.bit (g : CrcGen) : CrcGen := { g with crc := crcBitStep g.crc, bitCnt := g.bitCnt + 1 }

/-- `n` bit steps on the registers. -/
def CrcGen.bits : Nat → CrcGen → CrcGen
  | 0, g => g
  | n + 1, g => CrcGen.bits n g.bit

/-- One byte: absorb it with BITCNT 0, eight bit steps, BYTEIDX on to the next byte (40_crc.md R82 to R84).
DESIGN CHOICE (log 27): after the last byte BYTEIDX holds the number of bytes; 10_state.md R14 gives it only the range
0 to len - 1 while a byte is absorbed and is silent on the end. -/
def CrcGen.byte (g : CrcGen) (b : Byte) : CrcGen :=
  let g' := CrcGen.bits 8 { g with crc := crcAbsorb g.crc b, bitCnt := 0 }
  { g' with byteIdx := g'.byteIdx + 1 }

/-- The whole computation on the registers; CRC holds the result (40_crc.md R80). -/
def CrcGen.run (bytes : List Byte) : CrcGen := bytes.foldl CrcGen.byte CrcGen.start

/-- Entry `b` of the table-driven form, `step(0x0000, b)` (40_crc.md R89). -/
def crcTableEntry (b : Byte) : Word16 := crcByteStep 0 b

/-- The table-driven form (40_crc.md R89): `CRC <- (CRC >> 8) XOR t[(CRC XOR b)[7:0]]`. No operation uses it. -/
def crc16ByTable (bytes : List Byte) : Word16 :=
  bytes.foldl (fun c b => (c >>> 8) ^^^ crcTableEntry (lo8 c ^^^ b)) crcInit

end Sys2Proof.Machine
end

