-- ==== Sys2Proof/Machine/Frame.lean ====
section
/-! DEFINITION. The one frame format (30_encoding.md R50) and the bytes BUILD_REQUEST lays down (41_frame_codec.md R100). -/

namespace Sys2Proof.Machine

/-- A body with a trailer, whatever the trailer is: the bytes of a received frame (30_encoding.md R50, 20_memory.md R33). -/
def withTrailer (body : List Byte) (crc : Word16) : List Byte := body ++ trailerBytes crc

/-- `[unitId] ‖ [functionCode] ‖ payload` (41_frame_codec.md R100). -/
def requestBody (unit fn : Byte) (payload : List Byte) : List Byte := unit :: fn :: payload

/-- `BUILD_REQUEST(unitId, functionCode, payload)`: the body and its own CRC, low byte first (41_frame_codec.md R100). -/
def requestFrame (unit fn : Byte) (payload : List Byte) : List Byte :=
  let body := requestBody unit fn payload
  memWrite (memWrite (memWrite [] 0 body) (payload.length + 2) [lo8 (crc16 body)])
    (payload.length + 3) [hi8 (crc16 body)]

/-- The trailer of the bytes is the CRC16 of what precedes it: the frame invariant (30_encoding.md R50, 41_frame_codec.md R110). -/
def trailerRight (frame : List Byte) : Bool :=
  match splitTrailer frame with
  | some (body, t) => crc16 body == t
  | none => false

end Sys2Proof.Machine
end

