-- ==== Sys2Proof/Syntax.lean ====
section
/-! DEFINITION. The operations and wire frames of spec/opcode_table.json, one constructor a row, and the form in which they are presented (30_encoding.md). -/

namespace Sys2Proof

/-- The operands of a read operation: none, the start address only, or both (30_encoding.md R65, R69). -/
inductive ReadOperands where
  | defaults
  | start (startAddress : Word16)
  | both (startAddress quantity : Word16)
deriving DecidableEq, Repr

/-- One constructor per row of spec/opcode_table.json. The first eleven are the host's operations (30_encoding.md R67),
the next six the request frames the block builds, the last seven the response frames it receives (R70). A request's
trailer is fixed by its other bytes (R50) and is no operand; a response carries the trailer that arrived, right or wrong. -/
inductive Instr where
  | crc16 (bytes : List Byte)
  | buildRequest (unitId functionCode : Byte) (payload : List Byte)
  | validateResponse (frame : List Byte) (expectedUnitId : Option Byte)
  | sendRequest (functionCode : Byte) (payload : List Byte)
  | readStatus (operands : ReadOperands)
  | readAlarms (operands : ReadOperands)
  | readSensors (operands : ReadOperands)
  | readConfiguration (operands : ReadOperands)
  | writeSingleCoil (address : Word16) (value : Bool)
  | writeSingleRegister (address value : Word16)
  | writeMultipleRegisters (startAddress : Word16) (values : List Word16)
  | reqRead01 (unit : Byte) (start quantity : Word16)
  | reqRead02 (unit : Byte) (start quantity : Word16)
  | reqRead03 (unit : Byte) (start quantity : Word16)
  | reqWriteCoil05 (unit : Byte) (address : Word16) (value : Bool)
  | reqWriteReg06 (unit : Byte) (address value : Word16)
  | reqWriteMulti10 (unit : Byte) (start : Word16) (values : List Word16)
  | rspBits01 (unit : Byte) (bitfield : List Byte) (crc : Word16)
  | rspBits02 (unit : Byte) (bitfield : List Byte) (crc : Word16)
  | rspWords03 (unit : Byte) (words : List Word16) (crc : Word16)
  | rspEcho05 (unit : Byte) (address coilWord crc : Word16)
  | rspEcho06 (unit : Byte) (address value crc : Word16)
  | rspWriteMulti10 (unit : Byte) (payload : List Byte) (crc : Word16)
  | rspException (unit : Byte) (function : BitVec 7) (payload : List Byte) (crc : Word16)
deriving DecidableEq, Repr

/-- What stands at the block's two ports (DESIGN CHOICE, log 1). `cmd` is the host's operation: the selector OP and the
operand bytes in port order, each 16-bit operand high byte first, a byte sequence last. `req` is a request frame,
`rsp` a response frame, byte 0 first on the wire. The three are separate decode spaces (30_encoding.md R70). -/
inductive Presented where
  | cmd (op : BitVec 4) (operands : List Byte)
  | req (frame : List Byte)
  | rsp (frame : List Byte)
deriving DecidableEq, Repr

/-- Why a presented item is no instruction. -/
inductive Reject where
  /-- OP 0xB to 0xF (30_encoding.md R67). -/
  | illegalOperation (op : BitVec 4)
  /-- The operand bytes do not fit the operation's ports (92_eei_decisions.md D6). -/
  | operandsDoNotFit (op : BitVec 4)
  /-- The frame is none of the six request shapes (30_encoding.md R54 to R57). -/
  | noRequestRow
  /-- The received bytes have none of the seven response shapes (30_encoding.md R58 to R62). -/
  | noResponseRow
deriving DecidableEq, Repr

/-- The decoder's answer. -/
inductive Decoded where
  | instr (i : Instr)
  | rejected (r : Reject)
deriving DecidableEq, Repr

/-- The three decode spaces of 30_encoding.md R70. -/
inductive Space where
  | cmd
  | req
  | rsp
deriving DecidableEq, Repr

/-- A row of spec/opcode_table.json: its mnemonic, its space, and the match and mask over OP or over the function-code byte (30_encoding.md R70). -/
structure TableRow where
  mnemonic : String
  space : Space
  pattern : Byte
  mask : Byte
deriving DecidableEq, Repr

end Sys2Proof
end

