-- ==== Sys2Proof/Machine/Operands.lean ====
section
/-! DEFINITION. Operand forms: default operands, the coil word, and the payload each request lays down (30_encoding.md R54 to R57, R63 to R65). -/

namespace Sys2Proof.Machine

/-- The start address of a read; 0x0000 when left out (30_encoding.md R65). -/
def readStart : ReadOperands → Word16
  | .defaults => 0x0000
  | .start a => a
  | .both a _ => a

/-- The quantity of a read; the operation's own default when left out (30_encoding.md R65). -/
def readQuantity (default : Word16) : ReadOperands → Word16
  | .defaults => default
  | .start _ => default
  | .both _ q => q

/-- Default quantity of READ_STATUS (42_read_ops.md R121). -/
def statusQuantity : Word16 := 10

/-- Default quantity of READ_ALARMS (42_read_ops.md R122). -/
def alarmsQuantity : Word16 := 32

/-- Default quantity of READ_SENSORS (42_read_ops.md R124). -/
def sensorsQuantity : Word16 := 36

/-- Default quantity of READ_CONFIGURATION (42_read_ops.md R125). -/
def configurationQuantity : Word16 := 21

/-- The coil word: 0xFF00 if true else 0x0000 (30_encoding.md R64). -/
def coilWord (value : Bool) : Word16 := if value then 0xFF00 else 0x0000

/-- WM_MAX_COUNT (00_scope.md R5, 43_write_ops.md R156). -/
def writeMultipleMax : Nat := 127

/-- The payload of a read request, and of the single writes: two 16-bit fields, high byte first (30_encoding.md R54 to R56). -/
def twoWordPayload (first second : Word16) : List Byte := be16Bytes first ++ be16Bytes second

/-- The payload of the multiple write: start, count, byteCount = 2c, the values (30_encoding.md R57). -/
def multiplePayload (start : Word16) (values : List Word16) : List Byte :=
  be16Bytes start ++ be16Bytes (BitVec.ofNat 16 values.length) ++ [BitVec.ofNat 8 (2 * values.length)] ++ bytesOfWords values

/-- The body of a bit-read response after the function code: byte count, bitfield (30_encoding.md R58). -/
def bitsPayload (bitfield : List Byte) : List Byte := BitVec.ofNat 8 bitfield.length :: bitfield

/-- The body of a word-read response after the function code: byte count, words high byte first (30_encoding.md R59). -/
def wordsPayload (words : List Word16) : List Byte := BitVec.ofNat 8 (2 * words.length) :: bytesOfWords words

/-- The function-code byte of an exception response: bit 7 set over the low seven bits (30_encoding.md R62). -/
def exceptionFunction (function : BitVec 7) : Byte := (1#1) ++ function

/-- RX_MAX, the bytes of the one read (00_scope.md R5). -/
def rxMax : Nat := 256

/-- MIN_FRAME (00_scope.md R5). -/
def minFrame : Nat := 4

/-- The frame of each wire row: what the block builds, or the bytes that arrive (30_encoding.md R54 to R62). -/
def responseFrame (unit fn : Byte) (payload : List Byte) (crc : Word16) : List Byte :=
  withTrailer (requestBody unit fn payload) crc

end Sys2Proof.Machine
end

