-- ==== Sys2Proof/WellFormed.lean ====
section
/-! DEFINITION. Which terms of Instr are frames that exist: the length checks the types do not carry (30_encoding.md R51, R57 to R62). -/

namespace Sys2Proof

/-- A response is what one read can deliver, at most RX_MAX bytes (30_encoding.md R51); a 0x10 request has at most 127 values (R57);
a 0x10 response has at least the six bytes that are compared (R61). Every term of an operation of the host can be presented. -/
def Instr.wellFormed : Instr → Bool
  | .crc16 _ => true
  | .buildRequest _ _ _ => true
  | .validateResponse _ _ => true
  | .sendRequest _ _ => true
  | .readStatus _ => true
  | .readAlarms _ => true
  | .readSensors _ => true
  | .readConfiguration _ => true
  | .writeSingleCoil _ _ => true
  | .writeSingleRegister _ _ => true
  | .writeMultipleRegisters _ _ => true
  | .reqRead01 _ _ _ => true
  | .reqRead02 _ _ _ => true
  | .reqRead03 _ _ _ => true
  | .reqWriteCoil05 _ _ _ => true
  | .reqWriteReg06 _ _ _ => true
  | .reqWriteMulti10 _ _ values => decide (values.length ≤ Machine.writeMultipleMax)
  | .rspBits01 _ bitfield _ => decide (bitfield.length + 5 ≤ Machine.rxMax)
  | .rspBits02 _ bitfield _ => decide (bitfield.length + 5 ≤ Machine.rxMax)
  | .rspWords03 _ words _ => decide (2 * words.length + 5 ≤ Machine.rxMax)
  | .rspEcho05 _ _ _ _ => true
  | .rspEcho06 _ _ _ _ => true
  | .rspWriteMulti10 _ payload _ => decide (2 ≤ payload.length) && decide (payload.length + 4 ≤ Machine.rxMax)
  | .rspException _ _ payload _ => decide (payload.length + 4 ≤ Machine.rxMax)

end Sys2Proof
end

