-- ==== Sys2Proof/Decode.lean ====
section
/-! DEFINITION. The decoder of the three spaces, total and rejecting by name, and after it the encoder (30_encoding.md). -/

namespace Sys2Proof

open Machine

/-- The operands of a read as they stand at the port: nothing, an address, or an address and a quantity (30_encoding.md R65). -/
def decodeReadOperands : List Byte → Option ReadOperands
  | [] => some .defaults
  | [ah, al] => some (.start (be16 ah al))
  | [ah, al, qh, ql] => some (.both (be16 ah al) (be16 qh ql))
  | _ => none

/-- An instruction of a read, or the rejection of operand bytes that fit no form. -/
def decodeRead (op : BitVec 4) (operands : List Byte) (mk : ReadOperands → Instr) : Decoded :=
  match decodeReadOperands operands with
  | some r => .instr (mk r)
  | none => .rejected (.operandsDoNotFit op)

/-- The operation of a selector and its operand bytes (30_encoding.md R67; the operand layout is log 1). -/
def decodeCmd (op : BitVec 4) (operands : List Byte) : Decoded :=
  match op.toNat with
  | 0 => .instr (.crc16 operands)
  | 1 =>
    match operands with
    | unit :: fn :: payload => .instr (.buildRequest unit fn payload)
    | _ => .rejected (.operandsDoNotFit op)
  | 2 =>
    match operands with
    | flag :: rest =>
      if flag = 0 then .instr (.validateResponse rest none)
      else if flag = 1 then
        match rest with
        | expected :: frame => .instr (.validateResponse frame (some expected))
        | [] => .rejected (.operandsDoNotFit op)
      else .rejected (.operandsDoNotFit op)
    | [] => .rejected (.operandsDoNotFit op)
  | 3 =>
    match operands with
    | fn :: payload => .instr (.sendRequest fn payload)
    | [] => .rejected (.operandsDoNotFit op)
  | 4 => decodeRead op operands .readStatus
  | 5 => decodeRead op operands .readAlarms
  | 6 => decodeRead op operands .readSensors
  | 7 => decodeRead op operands .readConfiguration
  | 8 =>
    match operands with
    | [ah, al, v] =>
      if v = 0 then .instr (.writeSingleCoil (be16 ah al) false)
      else if v = 1 then .instr (.writeSingleCoil (be16 ah al) true)
      else .rejected (.operandsDoNotFit op)
    | _ => .rejected (.operandsDoNotFit op)
  | 9 =>
    match operands with
    | [ah, al, vh, vl] => .instr (.writeSingleRegister (be16 ah al) (be16 vh vl))
    | _ => .rejected (.operandsDoNotFit op)
  | 10 =>
    match operands with
    | ah :: al :: rest =>
      match wordsOfBytes rest with
      | some values => .instr (.writeMultipleRegisters (be16 ah al) values)
      | none => .rejected (.operandsDoNotFit op)
    | _ => .rejected (.operandsDoNotFit op)
  | _ => .rejected (.illegalOperation op)

/-- A 0x05 request from its two fields: only the coil words 0xFF00 and 0x0000 are ever emitted (30_encoding.md R55). -/
def decodeCoilRequest (unit : Byte) (address word : Word16) : Decoded :=
  if word = coilWord true then .instr (.reqWriteCoil05 unit address true)
  else if word = coilWord false then .instr (.reqWriteCoil05 unit address false)
  else .rejected .noRequestRow

/-- A 0x10 request from its fields: count is the number of values and byteCount twice that, at most 127 values (30_encoding.md R57). -/
def decodeMultipleRequest (unit : Byte) (start count : Word16) (byteCount : Byte) (rest : List Byte) : Decoded :=
  match wordsOfBytes rest with
  | some values =>
    if values.length ≤ writeMultipleMax ∧ count = BitVec.ofNat 16 values.length ∧ byteCount = BitVec.ofNat 8 (2 * values.length) then
      .instr (.reqWriteMulti10 unit start values)
    else .rejected .noRequestRow
  | none => .rejected .noRequestRow

/-- The request row of a function code and payload (30_encoding.md R53 to R57). -/
def decodeRequestBody (unit fn : Byte) (payload : List Byte) : Decoded :=
  match payload with
  | [ah, al, vh, vl] =>
    if fn = 0x01 then .instr (.reqRead01 unit (be16 ah al) (be16 vh vl))
    else if fn = 0x02 then .instr (.reqRead02 unit (be16 ah al) (be16 vh vl))
    else if fn = 0x03 then .instr (.reqRead03 unit (be16 ah al) (be16 vh vl))
    else if fn = 0x05 then decodeCoilRequest unit (be16 ah al) (be16 vh vl)
    else if fn = 0x06 then .instr (.reqWriteReg06 unit (be16 ah al) (be16 vh vl))
    else .rejected .noRequestRow
  | sh :: sl :: ch :: cl :: n :: rest =>
    if fn = 0x10 then decodeMultipleRequest unit (be16 sh sl) (be16 ch cl) n rest
    else .rejected .noRequestRow
  | _ => .rejected .noRequestRow

/-- A frame the block builds: it carries its own CRC (30_encoding.md R50) and has a request row. -/
def decodeRequest (frame : List Byte) : Decoded :=
  match splitTrailer frame with
  | some (unit :: fn :: payload, crc) =>
    if crc = crc16 (requestBody unit fn payload) then decodeRequestBody unit fn payload
    else .rejected .noRequestRow
  | _ => .rejected .noRequestRow

/-- A bit-read response whose byte count is the number of bytes that follow (30_encoding.md R58). -/
def decodeBitsResponse (payload : List Byte) (mk : List Byte → Instr) : Decoded :=
  match payload with
  | n :: bitfield => if n = BitVec.ofNat 8 bitfield.length then .instr (mk bitfield) else .rejected .noResponseRow
  | [] => .rejected .noResponseRow

/-- A word-read response whose byte count is the number of bytes that follow (30_encoding.md R59). -/
def decodeWordsResponse (payload : List Byte) (mk : List Word16 → Instr) : Decoded :=
  match payload with
  | n :: rest =>
    match wordsOfBytes rest with
    | some words => if n = BitVec.ofNat 8 (2 * words.length) then .instr (mk words) else .rejected .noResponseRow
    | none => .rejected .noResponseRow
  | [] => .rejected .noResponseRow

/-- An echo of two 16-bit fields (30_encoding.md R60). -/
def decodeEchoResponse (payload : List Byte) (mk : Word16 → Word16 → Instr) : Decoded :=
  match payload with
  | [ah, al, vh, vl] => .instr (mk (be16 ah al) (be16 vh vl))
  | _ => .rejected .noResponseRow

/-- The response row of a function code, payload and trailer (30_encoding.md R58 to R62). -/
def decodeResponseBody (unit fn : Byte) (payload : List Byte) (crc : Word16) : Decoded :=
  if fn.getLsbD 7 then .instr (.rspException unit (fn.extractLsb' 0 7) payload crc)
  else if fn = 0x01 then decodeBitsResponse payload (.rspBits01 unit · crc)
  else if fn = 0x02 then decodeBitsResponse payload (.rspBits02 unit · crc)
  else if fn = 0x03 then decodeWordsResponse payload (.rspWords03 unit · crc)
  else if fn = 0x05 then decodeEchoResponse payload (.rspEcho05 unit · · crc)
  else if fn = 0x06 then decodeEchoResponse payload (.rspEcho06 unit · · crc)
  else if fn = 0x10 then
    if 2 ≤ payload.length then .instr (.rspWriteMulti10 unit payload crc) else .rejected .noResponseRow
  else .rejected .noResponseRow

/-- The bytes of one read, at most RX_MAX of them (30_encoding.md R51), with any trailer: validation judges the trailer, not the decoder. -/
def decodeResponse (frame : List Byte) : Decoded :=
  if frame.length ≤ rxMax then
    match splitTrailer frame with
    | some (unit :: fn :: payload, crc) => decodeResponseBody unit fn payload crc
    | _ => .rejected .noResponseRow
  else .rejected .noResponseRow

/-- The decoder. The three formats are three separate decode spaces (30_encoding.md R70). -/
def decode : Presented → Decoded
  | .cmd op operands => decodeCmd op operands
  | .req frame => decodeRequest frame
  | .rsp frame => decodeResponse frame

/-- The operand bytes of a read. -/
def encodeReadOperands : ReadOperands → List Byte
  | .defaults => []
  | .start a => be16Bytes a
  | .both a q => be16Bytes a ++ be16Bytes q

/-- The encoder: OP and operand bytes of an operation (30_encoding.md R67), the whole frame of a wire row (R54 to R62). -/
def encode : Instr → Presented
  | .crc16 bytes => .cmd 0x0 bytes
  | .buildRequest unit fn payload => .cmd 0x1 (unit :: fn :: payload)
  | .validateResponse frame none => .cmd 0x2 (0 :: frame)
  | .validateResponse frame (some expected) => .cmd 0x2 (1 :: expected :: frame)
  | .sendRequest fn payload => .cmd 0x3 (fn :: payload)
  | .readStatus r => .cmd 0x4 (encodeReadOperands r)
  | .readAlarms r => .cmd 0x5 (encodeReadOperands r)
  | .readSensors r => .cmd 0x6 (encodeReadOperands r)
  | .readConfiguration r => .cmd 0x7 (encodeReadOperands r)
  | .writeSingleCoil a v => .cmd 0x8 (be16Bytes a ++ [if v then 1 else 0])
  | .writeSingleRegister a v => .cmd 0x9 (be16Bytes a ++ be16Bytes v)
  | .writeMultipleRegisters a vs => .cmd 0xA (be16Bytes a ++ bytesOfWords vs)
  | .reqRead01 unit a q => .req (requestFrame unit 0x01 (twoWordPayload a q))
  | .reqRead02 unit a q => .req (requestFrame unit 0x02 (twoWordPayload a q))
  | .reqRead03 unit a q => .req (requestFrame unit 0x03 (twoWordPayload a q))
  | .reqWriteCoil05 unit a v => .req (requestFrame unit 0x05 (twoWordPayload a (coilWord v)))
  | .reqWriteReg06 unit a v => .req (requestFrame unit 0x06 (twoWordPayload a v))
  | .reqWriteMulti10 unit a vs => .req (requestFrame unit 0x10 (multiplePayload a vs))
  | .rspBits01 unit bits crc => .rsp (responseFrame unit 0x01 (bitsPayload bits) crc)
  | .rspBits02 unit bits crc => .rsp (responseFrame unit 0x02 (bitsPayload bits) crc)
  | .rspWords03 unit words crc => .rsp (responseFrame unit 0x03 (wordsPayload words) crc)
  | .rspEcho05 unit a v crc => .rsp (responseFrame unit 0x05 (twoWordPayload a v) crc)
  | .rspEcho06 unit a v crc => .rsp (responseFrame unit 0x06 (twoWordPayload a v) crc)
  | .rspWriteMulti10 unit payload crc => .rsp (responseFrame unit 0x10 payload crc)
  | .rspException unit function payload crc => .rsp (responseFrame unit (exceptionFunction function) payload crc)

/-- The row of spec/opcode_table.json a constructor stands for (30_encoding.md R70). -/
def Instr.row : Instr → TableRow
  | .crc16 _ => { mnemonic := "CRC16", space := .cmd, pattern := 0x0, mask := 0xF }
  | .buildRequest _ _ _ => { mnemonic := "BUILD_REQUEST", space := .cmd, pattern := 0x1, mask := 0xF }
  | .validateResponse _ _ => { mnemonic := "VALIDATE_RESPONSE", space := .cmd, pattern := 0x2, mask := 0xF }
  | .sendRequest _ _ => { mnemonic := "SEND_REQUEST", space := .cmd, pattern := 0x3, mask := 0xF }
  | .readStatus _ => { mnemonic := "READ_STATUS", space := .cmd, pattern := 0x4, mask := 0xF }
  | .readAlarms _ => { mnemonic := "READ_ALARMS", space := .cmd, pattern := 0x5, mask := 0xF }
  | .readSensors _ => { mnemonic := "READ_SENSORS", space := .cmd, pattern := 0x6, mask := 0xF }
  | .readConfiguration _ => { mnemonic := "READ_CONFIGURATION", space := .cmd, pattern := 0x7, mask := 0xF }
  | .writeSingleCoil _ _ => { mnemonic := "WRITE_SINGLE_COIL", space := .cmd, pattern := 0x8, mask := 0xF }
  | .writeSingleRegister _ _ => { mnemonic := "WRITE_SINGLE_REGISTER", space := .cmd, pattern := 0x9, mask := 0xF }
  | .writeMultipleRegisters _ _ => { mnemonic := "WRITE_MULTIPLE_REGISTERS", space := .cmd, pattern := 0xA, mask := 0xF }
  | .reqRead01 _ _ _ => { mnemonic := "REQ_READ_01", space := .req, pattern := 0x01, mask := 0xFF }
  | .reqRead02 _ _ _ => { mnemonic := "REQ_READ_02", space := .req, pattern := 0x02, mask := 0xFF }
  | .reqRead03 _ _ _ => { mnemonic := "REQ_READ_03", space := .req, pattern := 0x03, mask := 0xFF }
  | .reqWriteCoil05 _ _ _ => { mnemonic := "REQ_WRITE_COIL_05", space := .req, pattern := 0x05, mask := 0xFF }
  | .reqWriteReg06 _ _ _ => { mnemonic := "REQ_WRITE_REG_06", space := .req, pattern := 0x06, mask := 0xFF }
  | .reqWriteMulti10 _ _ _ => { mnemonic := "REQ_WRITE_MULTI_10", space := .req, pattern := 0x10, mask := 0xFF }
  | .rspBits01 _ _ _ => { mnemonic := "RSP_BITS_01", space := .rsp, pattern := 0x01, mask := 0xFF }
  | .rspBits02 _ _ _ => { mnemonic := "RSP_BITS_02", space := .rsp, pattern := 0x02, mask := 0xFF }
  | .rspWords03 _ _ _ => { mnemonic := "RSP_WORDS_03", space := .rsp, pattern := 0x03, mask := 0xFF }
  | .rspEcho05 _ _ _ _ => { mnemonic := "RSP_ECHO_05", space := .rsp, pattern := 0x05, mask := 0xFF }
  | .rspEcho06 _ _ _ _ => { mnemonic := "RSP_ECHO_06", space := .rsp, pattern := 0x06, mask := 0xFF }
  | .rspWriteMulti10 _ _ _ => { mnemonic := "RSP_WRITE_MULTI_10", space := .rsp, pattern := 0x10, mask := 0xFF }
  | .rspException _ _ _ _ => { mnemonic := "RSP_EXCEPTION", space := .rsp, pattern := 0x80, mask := 0x80 }

/-- The decode space a presented item stands in. -/
def Presented.space : Presented → Space
  | .cmd _ _ => .cmd
  | .req _ => .req
  | .rsp _ => .rsp

/-- The byte a row's match and mask are over: OP, or the function-code byte at frame offset 1 (30_encoding.md R70). -/
def Presented.selector : Presented → Option Byte
  | .cmd op _ => some (op.setWidth 8)
  | .req frame => frame[1]?
  | .rsp frame => frame[1]?

/-- A presented item lies in a row: same space, and the row's match under its mask (30_encoding.md R70). -/
def TableRow.accepts (r : TableRow) (p : Presented) : Bool :=
  (p.space == r.space) && (match p.selector with | some b => (b &&& r.mask) == r.pattern | none => false)

/-- Operand bytes of zeros for each operation's fixed operands, sequences empty (for `tablePresented`). -/
def zeroOperands (op : Nat) : List Byte :=
  match op with
  | 1 => [0, 0]
  | 2 => [0]
  | 3 => [0]
  | 4 => [0, 0, 0, 0]
  | 5 => [0, 0, 0, 0]
  | 6 => [0, 0, 0, 0]
  | 7 => [0, 0, 0, 0]
  | 8 => [0, 0, 0]
  | 9 => [0, 0, 0, 0]
  | 10 => [0, 0]
  | _ => []

/-- The first `n` bytes of a number, least significant first. -/
def littleBytes : Nat → Nat → List Byte
  | 0, _ => []
  | n + 1, w => BitVec.ofNat 8 w :: littleBytes n (w / 256)

/-- The wire row of a function-code byte: with bit 7 set a five-byte exception response of zeros, else a request whose other bytes are zero and
whose trailer is its CRC. -/
def functionPresented (w : Nat) : Presented :=
  if w < 128 then .req (requestFrame 0 (BitVec.ofNat 8 w) (if w = 16 then [0, 0, 0, 0, 0] else [0, 0, 0, 0]))
  else .rsp [0, BitVec.ofNat 8 w, 0, 0, 0]

/-- The item a word of opcode_table.json's numbering stands for (DESIGN CHOICE, log 15). The table gives a CMD row the 4 bits of OP and a
wire row the 8 bits of its function code, in three spaces that overlap: a word of at most 8 bits below 16 is read as
OP, any other word below 256 as a function-code byte, and a longer one as a whole frame. -/
def tablePresented (nbits w : Nat) : Presented :=
  if nbits ≤ 8 ∧ w < 16 then .cmd (BitVec.ofNat 4 w) (zeroOperands w)
  else if w < 256 then functionPresented w
  else
    match decodeRequest (littleBytes (nbits / 8) w) with
    | .instr _ => .req (littleBytes (nbits / 8) w)
    | .rejected _ => .rsp (littleBytes (nbits / 8) w)

/-- The instruction the decoder reads from a word of the opcode table (log 15). -/
def decodeTableWord (nbits w : Nat) : Option Instr :=
  match decode (tablePresented nbits w) with
  | .instr i => some i
  | .rejected _ => none

end Sys2Proof
end

