-- ==== Sys2Proof/Config.lean ====
section
/-! DEFINITION. What the spec leaves to the outside: the link agent's answers and the free values (44_transaction.md R171, 92_eei_decisions.md D18). -/

namespace Sys2Proof

/-- The opaque pair the link agent gives with a failure; the block passes it on and never looks at it (44_transaction.md R171, R175).
DESIGN CHOICE (log 28): an unbounded integer and a string; the spec gives the pair no values and no format (91_not_in_source.md N18). -/
structure LinkErr where
  errno : Int
  message : String
deriving DecidableEq, Repr, Inhabited

/-- What `link.open()` answers (44_transaction.md R171). -/
inductive OpenAnswer where
  | ok
  | fail (e : LinkErr)
deriving DecidableEq, Repr, Inhabited

/-- What `link.write(s)` comes to: the frame is handed over whole, or the I/O error that R175 leaves to LINK_IO_ERROR. -/
inductive WriteAnswer where
  | ok
  | ioError (e : LinkErr)
deriving DecidableEq, Repr, Inhabited

/-- What `link.read(256)` comes to: bytes, a read that timed out, a connection closed by the peer
(both answer the empty sequence, R174), or an I/O error (R175). -/
inductive ReadAnswer where
  | bytes (bs : List Byte)
  | timeout
  | peerClosed
  | ioError (e : LinkErr)
deriving DecidableEq, Repr, Inhabited

/-- The two scaling tables (42_read_ops.md R128, R129); the host's choice of operation picks one (20_memory.md R40). -/
inductive ScaleTable where
  | sensor
  | configuration
deriving DecidableEq, Repr, Inhabited

namespace Config

/-- DESIGN CHOICE (log 7): the free draw of `link.open` where the scripted answers have run out. -/
opaque openDraw : Nat → OpenAnswer

/-- DESIGN CHOICE (log 7): the free draw of `link.write` where the scripted answers have run out. -/
opaque writeDraw : Nat → WriteAnswer

/-- DESIGN CHOICE (log 7): the free draw of `link.read` where the scripted answers have run out. -/
opaque readDraw : Nat → ReadAnswer

/-- DESIGN CHOICE (log 11): the scaling table of a 0x03 request known only by its frame;
"the wire does not tell them apart" (opcode_table.json REQ_READ_03, 42_read_ops.md R125). -/
opaque wireTableDraw : Nat → ScaleTable

end Config

end Sys2Proof
end

