-- ==== Sys2Proof/Machine/State.lean ====
section
/-! DEFINITION. The state of the block as plain data, its results and failures, and the state after construction (10_state.md R10 to R24, 60_exceptions.md R190). -/

namespace Sys2Proof.Machine

/-- The six Modbus exception codes the block knows (60_exceptions.md R195). -/
inductive ModbusExc where
  | illegalFunction
  | illegalDataAddress
  | illegalDataValue
  | slaveDeviceFailure
  | slaveDeviceBusy
  | crcCheckFailure
deriving DecidableEq, Repr

/-- The failures an operation can end with, STATUS 1 to 10 (60_exceptions.md R190). A failure is a result delivered to the host, never a stop of the machine (R193, R194). -/
inductive Failure where
  | connectionFailed (e : LinkErr)
  | emptyResponse
  | frameTooShort
  | crcMismatch
  | modbusException (exc : ModbusExc)
  | unknownModbusException (code : Byte)
  | writeVerificationFailed
  | decodeUndefined
  | operandRefused
  | illegalOperation
deriving DecidableEq, Repr

/-- The six transforms of a register word (42_read_ops.md R127). -/
inductive Transform where
  | s10
  | u100
  | u10
  | u65280
  | baud
  | ident
deriving DecidableEq, Repr

/-- A scaled value: the exact fraction `num / den`, not reduced, with its transform tag (42_read_ops.md R130). -/
structure Scaled where
  tag : Transform
  num : Int
  den : Nat
deriving DecidableEq, Repr

/-- A RegisterValueSet: (address, value) pairs in ascending address order; addresses are integers (42_read_ops.md R133, R135). -/
inductive ValueSet where
  | bits (entries : List (Nat × Bool))
  | words (entries : List (Nat × Scaled))
deriving DecidableEq, Repr

/-- What success carries: CRC_OUT, OUT_FRAME, VALUESET, or nothing for a write (10_state.md R17, 30_encoding.md R67). -/
inductive OkValue where
  | crcOut (crc : Word16)
  | outFrame (frame : List Byte)
  | valueSet (v : ValueSet)
  | done
deriving DecidableEq, Repr

/-- The tagged result of an operation, success or one failure, never both (10_state.md R17). -/
inductive Result where
  | ok (v : OkValue)
  | failed (f : Failure)
deriving DecidableEq, Repr

/-- CONN (10_state.md R24). -/
inductive Conn where
  | closed
  | opened
deriving DecidableEq, Repr

/-- What the answer to the request in flight is for: the sequencing state of an exchange (10_state.md R19, log 12). -/
inductive Purpose where
  /-- SEND_REQUEST: hand the validated frame over (44_transaction.md R170). -/
  | raw
  /-- DecodeBits (42_read_ops.md R123). -/
  | bits (start quantity : Word16)
  /-- DecodeWords under a table (42_read_ops.md R126). -/
  | words (table : ScaleTable) (start quantity : Word16)
  /-- The full-frame echo comparison (43_write_ops.md R153). -/
  | echo
  /-- The six-byte prefix comparison (43_write_ops.md R155). -/
  | echoPrefix
deriving DecidableEq, Repr

/-- What passed at the link port (44_transaction.md R171). -/
inductive LinkEvent where
  | opened
  | openFailed (e : LinkErr)
  | wrote (frame : List Byte)
  | writeFailed (e : LinkErr)
  | read (bytes : List Byte)
  | readFailed (e : LinkErr)
  | closed
deriving DecidableEq, Repr

/-- The link port: the link agent's coming answers to each request, oldest first, with the counters that index the free answers
beyond them (log 7); and the model's record of what passed, oldest first (log 8). -/
structure Link where
  opens : List OpenAnswer
  openDraws : Nat
  writes : List WriteAnswer
  writeDraws : Nat
  reads : List ReadAnswer
  readDraws : Nat
  log : List LinkEvent
deriving DecidableEq, Repr

/-- The state of one client instance (10_state.md R10). A working register or a result that holds no value is `none`, as R17 and R23
say it; TXLEN and RXLEN are the lengths of their buffers (log 4, log 5). -/
structure State where
  /-- UNIT_ID (R11). -/
  unitId : Byte
  /-- HOST (R12). -/
  host : String
  /-- PORT (R12). -/
  port : Int
  /-- TIMEOUT (R12). -/
  timeoutSeconds : Nat
  /-- TX_CAP (00_scope.md R5), `none` for unbounded. -/
  txCap : Option Nat
  /-- LINK_IO_ERROR (44_transaction.md R175), `none` for ConnectionFailed. -/
  linkIoError : Option Failure
  /-- CRC, BYTEIDX, BITCNT (R13, R14; BYTEIDX at the end: log 27). -/
  crcGen : Option CrcGen
  /-- TXBUF (R15). -/
  txbuf : Option (List Byte)
  /-- RXBUF (R16). -/
  rxbuf : Option (List Byte)
  /-- STATUS, EXC_CODE, CRC_OUT, OUT_FRAME, VALUESET, LINK_ERR (R17; the form of LINK_ERR: log 28). -/
  result : Option Result
  /-- CONN (R24). -/
  conn : Conn
  /-- The exchange in flight (R19, log 12). -/
  exchange : Option Purpose
  /-- What the host and the wire present next, oldest first (00_scope.md R8, log 1). -/
  presented : List Presented
  /-- The link port (44_transaction.md R171). -/
  link : Link
deriving DecidableEq, Repr

/-- Why the machine stops. -/
inductive Fault where
  /-- Raised by every operation and request frame, and by an unused selector (DESIGN CHOICE, log 31), presented while an exchange is in flight on the same client: DOC00 gives it no
  meaning and the block no step (20_memory.md R45, 70_reset_and_hazards.md R224, 93_implementation_defined.md U4 "stuck (no step for it)"). Safe. -/
  | operationInProgress
deriving DecidableEq, Repr

/-- Why a presented item has no meaning. -/
inductive Refusal where
  /-- An instruction with no meaning yet. Safe. -/
  | notModelled (mnemonic : String)
  /-- Raised by the step on operand bytes that do not fit the operation's ports: such operands "cannot be presented" (92_eei_decisions.md D6). Safe. -/
  | operandsDoNotFit
  /-- Raised by the step on a request frame that is none of the six shapes the typed operations build (30_encoding.md R53 to R57). Safe. -/
  | noRequestRow
deriving DecidableEq, Repr

/-- TIMEOUT, "fixed at 5 seconds" (00_scope.md R5). -/
def timeoutDefault : Nat := 5

/-- Construction of a client instance: UNIT_ID, HOST and PORT from the parameters, everything else as 10_state.md R23 says. -/
def State.construct (unitId : Byte) (host : String) (port : Int) : State where
  unitId := unitId
  host := host
  port := port
  timeoutSeconds := timeoutDefault
  txCap := none
  linkIoError := none
  crcGen := none
  txbuf := none
  rxbuf := none
  result := none
  conn := .closed
  exchange := none
  presented := []
  link := { opens := [], openDraws := 0, writes := [], writeDraws := 0, reads := [], readDraws := 0, log := [] }

/-- The state after reset: construction with the default unit id 1 (10_state.md R23, 70_reset_and_hazards.md R220).
DESIGN CHOICE (log 3): HOST "" and PORT 0, which the spec gives no default. -/
def State.reset : State := State.construct 1 "" 0

end Sys2Proof.Machine
end

