-- ==== Sys2Proof/Machine/Tables.lean ====
section
/-! DEFINITION. The four constant tables of 10_state.md R21 and the six transforms (60_exceptions.md R195; 42_read_ops.md R127 to R129). -/

namespace Sys2Proof.Machine

/-- EXC_TABLE: code and name (60_exceptions.md R195). -/
def excTable : List (Byte × ModbusExc) :=
  [(0x01, .illegalFunction), (0x02, .illegalDataAddress), (0x03, .illegalDataValue),
   (0x04, .slaveDeviceFailure), (0x06, .slaveDeviceBusy), (0x0C, .crcCheckFailure)]

/-- The known exception of a code; none for the other 250 (41_frame_codec.md R106). -/
def excOfCode (code : Byte) : Option ModbusExc := excTable.lookup code

/-- The code of a known exception (60_exceptions.md R195). -/
def excCode : ModbusExc → Byte
  | .illegalFunction => 0x01
  | .illegalDataAddress => 0x02
  | .illegalDataValue => 0x03
  | .slaveDeviceFailure => 0x04
  | .slaveDeviceBusy => 0x06
  | .crcCheckFailure => 0x0C

/-- The text a ModbusException carries (60_exceptions.md R195). -/
def excText : ModbusExc → String
  | .illegalFunction => "Illegal function"
  | .illegalDataAddress => "Illegal data address"
  | .illegalDataValue => "Illegal data value"
  | .slaveDeviceFailure => "Slave device failure"
  | .slaveDeviceBusy => "Slave device busy"
  | .crcCheckFailure => "CRC check failure"

/-- BAUD_LIST (42_read_ops.md R127). -/
def baudList : List Nat := [4800, 9600, 19200, 38400]

/-- SENSOR_SCALE: the addresses with a transform of their own (42_read_ops.md R128). -/
def sensorScale : List (Nat × Transform) :=
  [(0x00, .s10), (0x01, .s10), (0x02, .u100), (0x03, .u100), (0x04, .u100), (0x05, .u10), (0x06, .s10), (0x23, .u65280)]

/-- CONFIG_SCALE: the addresses with a transform of their own (42_read_ops.md R129). -/
def configScale : List (Nat × Transform) :=
  [(0x00, .s10), (0x01, .s10), (0x02, .s10), (0x03, .s10), (0x04, .s10), (0x05, .s10), (0x06, .u10), (0x07, .u10), (0x08, .u10),
   (0x0E, .baud), (0x12, .u10), (0x13, .u10)]

/-- The transform of an absolute address; every other address is the raw integer (42_read_ops.md R128, R129). -/
def transformAt (table : ScaleTable) (address : Nat) : Transform :=
  match table with
  | .sensor => (sensorScale.lookup address).getD .ident
  | .configuration => (configScale.lookup address).getD .ident

/-- A raw word under a transform, as the exact fraction (42_read_ops.md R127, R130). -/
def applyTransform (t : Transform) (raw : Word16) : Scaled :=
  match t with
  | .s10 => { tag := .s10, num := signed16 raw, den := 10 }
  | .u100 => { tag := .u100, num := raw.toNat, den := 100 }
  | .u10 => { tag := .u10, num := raw.toNat, den := 10 }
  | .u65280 => { tag := .u65280, num := raw.toNat, den := 65280 }
  | .baud => { tag := .baud, num := (baudList[raw.toNat]?).getD raw.toNat, den := 1 }
  | .ident => { tag := .ident, num := raw.toNat, den := 1 }

end Sys2Proof.Machine
end

