-- ==== Sys2Proof/Machine/Flags.lean ====
section
/-! DEFINITION. The block has no flag that outlives an operation (10_state.md R20). Here are the one bit it tests in a frame, and the result registers of R17 as views of the tagged result. -/

namespace Sys2Proof.Machine

/-- Bit 7 of the function-code byte, `fn AND 0x80`, marks an exception (41_frame_codec.md R106). -/
def exceptionBit (fn : Byte) : Bool := (fn &&& 0x80) != 0

/-- The STATUS number of a failure (60_exceptions.md R190). -/
def Failure.status : Failure → Nat
  | .connectionFailed _ => 1
  | .emptyResponse => 2
  | .frameTooShort => 3
  | .crcMismatch => 4
  | .modbusException _ => 5
  | .unknownModbusException _ => 6
  | .writeVerificationFailed => 7
  | .decodeUndefined => 8
  | .operandRefused => 9
  | .illegalOperation => 10

/-- STATUS (10_state.md R17, 60_exceptions.md R190). -/
def State.status (s : State) : Option Nat :=
  match s.result with
  | some (.ok _) => some 0
  | some (.failed f) => some f.status
  | none => none

/-- EXC_CODE, meaningful only for the two exception failures (10_state.md R17). -/
def State.excCode (s : State) : Option Byte :=
  match s.result with
  | some (.failed (.modbusException e)) => some (Machine.excCode e)
  | some (.failed (.unknownModbusException code)) => some code
  | _ => none

/-- The text carried by a ModbusException (60_exceptions.md R195). -/
def State.excText (s : State) : Option String :=
  match s.result with
  | some (.failed (.modbusException e)) => some (Machine.excText e)
  | _ => none

/-- CRC_OUT (10_state.md R17). -/
def State.crcOut (s : State) : Option Word16 :=
  match s.result with
  | some (.ok (.crcOut c)) => some c
  | _ => none

/-- OUT_FRAME (10_state.md R17). -/
def State.outFrame (s : State) : Option (List Byte) :=
  match s.result with
  | some (.ok (.outFrame f)) => some f
  | _ => none

/-- VALUESET (10_state.md R17). -/
def State.valueSet (s : State) : Option ValueSet :=
  match s.result with
  | some (.ok (.valueSet v)) => some v
  | _ => none

/-- LINK_ERR (10_state.md R17). -/
def State.linkErr (s : State) : Option LinkErr :=
  match s.result with
  | some (.failed (.connectionFailed e)) => some e
  | _ => none

/-- TXLEN, the length of TXBUF while it holds a frame (10_state.md R15, log 5). -/
def State.txlen (s : State) : Option Nat := s.txbuf.map List.length

/-- RXLEN, the length of RXBUF while it holds bytes (10_state.md R16, log 5). -/
def State.rxlen (s : State) : Option Nat := s.rxbuf.map List.length

/-- The BODY view of a frame, `frame[0 .. L-3]` (41_frame_codec.md R108). -/
def frameBody (frame : List Byte) : List Byte := frame.take (frame.length - 2)

/-- The DATA view of a frame, `frame[2 .. L-3]` (41_frame_codec.md R108). -/
def frameData (frame : List Byte) : List Byte := (frameBody frame).drop 2

end Sys2Proof.Machine
end

