-- ==== Sys2Proof/Machine/Validate.lean ====
section
/-! DEFINITION. The four checks of VALIDATE_RESPONSE (41_frame_codec.md R102 to R108), the two decoders (42_read_ops.md R123, R126, R131) and the two echo checks (43_write_ops.md R153, R155), as functions of bytes. -/

namespace Sys2Proof.Machine

/-- The failure of an exception response with this code (41_frame_codec.md R106). -/
def exceptionFailure (code : Byte) : Failure :=
  match excOfCode code with
  | some e => .modbusException e
  | none => .unknownModbusException code

/-- Check 4 on a frame whose trailer is right: the second byte's bit 7 is set, the third byte is the code (41_frame_codec.md R106, R107). -/
def exceptionCheck (frame : List Byte) : Option Failure :=
  match frame with
  | _ :: fn :: code :: _ => if exceptionBit fn then some (exceptionFailure code) else none
  | _ => none

/-- The four checks in their order; `none` is success (41_frame_codec.md R102). -/
def validate (frame : List Byte) : Option Failure :=
  if frame.length = 0 then some .emptyResponse
  else if frame.length < minFrame then some .frameTooShort
  else if trailerRight frame then exceptionCheck frame
  else some .crcMismatch

/-- VALIDATE_RESPONSE's result: the frame unchanged, or the first failing check (41_frame_codec.md R102, R108). -/
def validationResult (frame : List Byte) : Result :=
  match validate frame with
  | none => .ok (.outFrame frame)
  | some f => .failed f

/-- The values of `entry 0` to `entry (n - 1)` in order, all or nothing (42_read_ops.md R136). -/
def gather {α : Type} (entry : Nat → Option α) : Nat → Option (List α)
  | 0 => some []
  | n + 1 =>
    match gather entry n, entry n with
    | some xs, some x => some (xs ++ [x])
    | _, _ => none

/-- The precondition of a decode that needs `need` data bytes: (a) `L >= 5`, (b) `3 + n <= L - 2`, (c) `need <= n` (42_read_ops.md R131). -/
def decodeDefined (resp : List Byte) (need : Nat) : Bool :=
  match resp[2]? with
  | some n => decide (5 ≤ resp.length) && decide (3 + n.toNat ≤ resp.length - 2) && decide (need ≤ n.toNat)
  | none => false

/-- Entry `i` of a bit read: bit `i mod 8` of the byte at offset `3 + i div 8`, at address `startAddress + i` (42_read_ops.md R123, R135). -/
def bitEntry (resp : List Byte) (start : Word16) (i : Nat) : Option (Nat × Bool) :=
  (resp[3 + i / 8]?).map fun b => (start.toNat + i, b.getLsbD (i % 8))

/-- `DecodeBits(resp, startAddress, quantity)`; none where R131 does not hold (42_read_ops.md R123). -/
def decodeBits (resp : List Byte) (start quantity : Word16) : Option (List (Nat × Bool)) :=
  if decodeDefined resp ((quantity.toNat + 7) / 8) then gather (bitEntry resp start) quantity.toNat else none

/-- Entry `i` of a word read: the big-endian word at offset `3 + 2i` under the transform of its absolute address (42_read_ops.md R126, R135). -/
def wordEntry (table : ScaleTable) (resp : List Byte) (start : Word16) (i : Nat) : Option (Nat × Scaled) :=
  match resp[3 + 2 * i]?, resp[4 + 2 * i]? with
  | some h, some l => some (start.toNat + i, applyTransform (transformAt table (start.toNat + i)) (be16 h l))
  | _, _ => none

/-- `DecodeWords(resp, startAddress, quantity, TABLE)`; none where R131 does not hold (42_read_ops.md R126). -/
def decodeWords (table : ScaleTable) (resp : List Byte) (start quantity : Word16) : Option (List (Nat × Scaled)) :=
  if decodeDefined resp (2 * quantity.toNat) then gather (wordEntry table resp start) quantity.toNat else none

/-- How many leading bytes the multiple write compares (43_write_ops.md R155). -/
def echoPrefixLength : Nat := 6

/-- What the operation makes of a validated response, given the request that was sent (42_read_ops.md R121 to R126; 43_write_ops.md R153, R155; 44_transaction.md R170 step 7). -/
def interpret (purpose : Purpose) (request : Option (List Byte)) (resp : List Byte) : Result :=
  match purpose with
  | .raw => .ok (.outFrame resp)
  | .bits start quantity =>
    match decodeBits resp start quantity with
    | some entries => .ok (.valueSet (.bits entries))
    | none => .failed .decodeUndefined
  | .words table start quantity =>
    match decodeWords table resp start quantity with
    | some entries => .ok (.valueSet (.words entries))
    | none => .failed .decodeUndefined
  | .echo => if request = some resp then .ok .done else .failed .writeVerificationFailed
  | .echoPrefix =>
    if request.map (List.take echoPrefixLength) = some (resp.take echoPrefixLength) then .ok .done
    else .failed .writeVerificationFailed

/-- Validation first, then the operation's own reading of the frame (44_transaction.md R170 step 6, 60_exceptions.md R201). -/
def answerResult (purpose : Purpose) (request : Option (List Byte)) (bytes : List Byte) : Result :=
  match validate bytes with
  | some f => .failed f
  | none => interpret purpose request bytes

end Sys2Proof.Machine
end

