-- ==== Sys2Proof/Machine/Ops.lean ====
section
/-! DEFINITION. The operations every meaning is made of: the CRC generator and the buffers of the state, the link port, delivering a result, the sending and the receiving half of an exchange (44_transaction.md). -/

namespace Sys2Proof.Machine

/-- The outcome of a step of this machine. -/
abbrev Out := Host.Outcome State Fault Refusal

/-! ### The block's own registers -/

/-- A CRC computation on CRC, BYTEIDX and BITCNT (10_state.md R13, R14); the result is what CRC holds at its end. -/
def runCrc (bytes : List Byte) (s : State) : State := { s with crcGen := some (CrcGen.run bytes) }

/-- The request frame is built into TXBUF, its CRC computed on the way (41_frame_codec.md R100). -/
def loadTx (unit fn : Byte) (payload : List Byte) (s : State) : State :=
  { runCrc (requestBody unit fn payload) s with txbuf := some (requestFrame unit fn payload) }

/-- A request of `N` payload bytes, `N + 4` in all, fits TXBUF (41_frame_codec.md R100, 10_state.md R15). -/
def fitsTx (s : State) (payload : List Byte) : Bool :=
  match s.txCap with
  | none => true
  | some cap => decide (payload.length + 4 ≤ cap)

/-- The end of an operation: the result stands for the host, the exchange is over and every working register is dead (10_state.md R17, R24; 60_exceptions.md R193). -/
def deliver (r : Result) (s : State) : State :=
  { s with result := some r, exchange := none, crcGen := none, txbuf := none, rxbuf := none }

/-- Raising a failure: the one way an operation ends without success (60_exceptions.md R193). Return from it is nothing but the next operation (R194). -/
def raise (f : Failure) (s : State) : State := deliver (.failed f) s

/-- An operation runs only when no exchange is in flight on the client (20_memory.md R45, 70_reset_and_hazards.md R224). -/
def whenIdle (s : State) (run : State → State) : Out :=
  match s.exchange with
  | none => .next (run s)
  | some _ => .fault .operationInProgress

/-! ### The link port -/

/-- The answer `link.open()` will give: the next scripted one, else a free one (44_transaction.md R171, log 7). -/
def openAnswer (s : State) : OpenAnswer :=
  match s.link.opens with
  | a :: _ => a
  | [] => Config.openDraw s.link.openDraws

/-- What `link.write` will come to. -/
def writeAnswer (s : State) : WriteAnswer :=
  match s.link.writes with
  | a :: _ => a
  | [] => Config.writeDraw s.link.writeDraws

/-- What `link.read(256)` will come to. -/
def readAnswer (s : State) : ReadAnswer :=
  match s.link.reads with
  | a :: _ => a
  | [] => Config.readDraw s.link.readDraws

/-- The bytes a read that ends without an I/O error puts into RXBUF: at most RX_MAX; nothing on a timeout or when the peer closed (44_transaction.md R173, R174). -/
def readBytes : ReadAnswer → List Byte
  | .bytes bs => bs.take rxMax
  | .timeout => []
  | .peerClosed => []
  | .ioError _ => []

/-- An event at the link port is recorded. -/
def Link.note (k : Link) (e : LinkEvent) : Link := { k with log := k.log ++ [e] }

/-- `link.open()` was answered Ok: CONN opens (44_transaction.md R170 step 1). -/
def linkOpened (s : State) : State :=
  { s with conn := .opened, link := { s.link.note .opened with opens := s.link.opens.tail, openDraws := s.link.openDraws + 1 } }

/-- `link.open()` was answered Fail: no connection (44_transaction.md R172). -/
def linkOpenFailed (e : LinkErr) (s : State) : State :=
  { s with link := { s.link.note (.openFailed e) with opens := s.link.opens.tail, openDraws := s.link.openDraws + 1 } }

/-- `link.write(frame)`, once and in full (44_transaction.md R170 step 3, R180). -/
def linkWrote (frame : List Byte) (s : State) : State :=
  { s with link := { s.link.note (.wrote frame) with writes := s.link.writes.tail, writeDraws := s.link.writeDraws + 1 } }

/-- An I/O error during the write (44_transaction.md R175). -/
def linkWriteFailed (e : LinkErr) (s : State) : State :=
  { s with link := { s.link.note (.writeFailed e) with writes := s.link.writes.tail, writeDraws := s.link.writeDraws + 1 } }

/-- The bytes of the one read are in RXBUF, and a CRC computation over all but the last two has run where there are at least MIN_FRAME of them (44_transaction.md R170 steps 4 and 6). -/
def loadRx (bytes : List Byte) (s : State) : State :=
  let s' := if minFrame ≤ bytes.length then runCrc (frameBody bytes) s else s
  { s' with rxbuf := some bytes, link := s'.link.note (.read bytes) }

/-- The answer of `link.read` is used up. -/
def takeRead (s : State) : State := { s with link := { s.link with reads := s.link.reads.tail, readDraws := s.link.readDraws + 1 } }

/-- An I/O error during the read (44_transaction.md R175). -/
def linkReadFailed (e : LinkErr) (s : State) : State := { s with link := s.link.note (.readFailed e) }

/-- `link.close()`: CONN closes, on every path (44_transaction.md R170 step 5, R172). -/
def linkClosed (s : State) : State := { s with conn := .closed, link := s.link.note .closed }

/-- The failure reported for an I/O error during write or read: LINK_IO_ERROR, by default ConnectionFailed (44_transaction.md R175). -/
def ioFailure (s : State) (e : LinkErr) : Failure :=
  match s.linkIoError with
  | none => .connectionFailed e
  | some f => f

/-! ### The two halves of an exchange -/

/-- How the sending half ends: with a failure, or with the request on the wire. -/
inductive Sent where
  | failed (f : Failure) (s : State)
  | inFlight (s : State)
deriving DecidableEq, Repr

/-- Steps 1 to 3 of SEND_REQUEST: open, build, write. Under a finite TX_CAP a frame that does not fit is refused at step 2, after the
connection was opened and with it closed again (44_transaction.md R170, R172, R175, R176). -/
def transmit (unit fn : Byte) (payload : List Byte) (s : State) : Sent :=
  match openAnswer s with
  | .fail e => .failed (.connectionFailed e) (linkOpenFailed e s)
  | .ok =>
    let s1 := linkOpened s
    if fitsTx s payload then
      let s2 := loadTx unit fn payload s1
      match writeAnswer s2 with
      | .ioError e => .failed (ioFailure s e) (linkClosed (linkWriteFailed e s2))
      | .ok => .inFlight (linkWrote (requestFrame unit fn payload) s2)
    else .failed .operandRefused (linkClosed s1)

/-- Steps 5 to 7 and the operation's own reading, once the bytes of the one read are known: close, validate, then decode or compare
(44_transaction.md R170, R172). -/
def receive (purpose : Purpose) (bytes : List Byte) (s : State) : State :=
  deliver (answerResult purpose s.txbuf bytes) (linkClosed (loadRx bytes s))

/-- Step 4: the one read, at most 256 bytes (44_transaction.md R170, R173 to R175), then `receive`. -/
def receiveFromLink (purpose : Purpose) (s : State) : State :=
  match readAnswer s with
  | .ioError e => raise (ioFailure s e) (linkClosed (linkReadFailed e (takeRead s)))
  | a => receive purpose (readBytes a) (takeRead s)

/-- SEND_REQUEST as one step, with what its answer is for (44_transaction.md R170). -/
def transact (purpose : Purpose) (fn : Byte) (payload : List Byte) (s : State) : State :=
  match transmit s.unitId fn payload s with
  | .failed f s' => raise f s'
  | .inFlight s' => receiveFromLink purpose s'

/-- A typed operation: the request that cannot be built is refused before anything else, then exactly one SEND_REQUEST
(42_read_ops.md R120, R136; 43_write_ops.md R157, R159; log 14). -/
def typedTransact (purpose : Purpose) (fn : Byte) (payload : List Byte) (s : State) : State :=
  if fitsTx s payload then transact purpose fn payload s else raise .operandRefused s

/-- The sending half alone, as a request row runs it: afterwards the request is in flight, TXBUF holds it, and there is no result (log 9). -/
def sendRow (purpose : Purpose) (unit fn : Byte) (payload : List Byte) (s : State) : State :=
  if fitsTx s payload then
    match transmit unit fn payload s with
    | .failed f s' => raise f s'
    | .inFlight s' => { s' with exchange := some purpose, result := none, crcGen := none }
  else raise .operandRefused s

/-- The receiving half alone, as a response row runs it: the first 256 bytes answer the request in flight; bytes that arrive with none in
flight have no effect, since the block "does not listen for unsolicited frames" (60_exceptions.md R200; 44_transaction.md R173; log 10).
DESIGN CHOICE (log 29): a request row's exchange is answered by bytes alone; no presented item stands for an I/O error of its read (R175). -/
def receiveRow (frame : List Byte) (s : State) : Out :=
  match s.exchange with
  | none => .next s
  | some purpose => .next (receive purpose (frame.take rxMax) s)

/-- OP 0xB to 0xF deliver IllegalOperation; nothing is sent (30_encoding.md R67, 60_exceptions.md R198).
DESIGN CHOICE (log 31): while a request row's exchange is in flight such a selector, which names no operation, ends in the fault
`operationInProgress` as an operation does; the spec gives it no outcome there. -/
def illegalOperation (s : State) : Out := whenIdle s (raise .illegalOperation)

end Sys2Proof.Machine
end

