-- ==== Sys2Proof/Machine/Codec.lean ====
section
/-! DEFINITION. CRC16, BUILD_REQUEST and VALIDATE_RESPONSE: pure, no round trip (40_crc.md R80; 41_frame_codec.md R100, R102; 20_memory.md R38). -/

namespace Sys2Proof.Machine

/-- CRC16 (40_crc.md R80): CRC_OUT is what CRC holds at the end. -/
def execCrc16 (bytes : List Byte) (s : State) : Out :=
  whenIdle s fun s => deliver (.ok (.crcOut (CrcGen.run bytes).crc)) (runCrc bytes s)

/-- BUILD_REQUEST (41_frame_codec.md R100, R101): any unit id, any function code, any payload; refused only under a finite TX_CAP. -/
def execBuildRequest (unit fn : Byte) (payload : List Byte) (s : State) : Out :=
  whenIdle s fun s =>
    if fitsTx s payload then deliver (.ok (.outFrame (requestFrame unit fn payload))) (loadTx unit fn payload s)
    else raise .operandRefused s

/-- VALIDATE_RESPONSE (41_frame_codec.md R102); the expected unit id is accepted and ignored (R109). -/
def execValidateResponse (frame : List Byte) (_expectedUnitId : Option Byte) (s : State) : Out :=
  whenIdle s fun s =>
    deliver (validationResult frame) (if minFrame ≤ frame.length then runCrc (frameBody frame) s else s)

end Sys2Proof.Machine
end

