-- ==== Sys2Proof/Machine/Reads.lean ====
section
/-! DEFINITION. The four read operations (42_read_ops.md R120 to R136). -/

namespace Sys2Proof.Machine

/-- READ_STATUS: function code 0x01, default quantity 10, bits (42_read_ops.md R121). -/
def execReadStatus (operands : ReadOperands) (s : State) : Out :=
  let start := readStart operands
  let quantity := readQuantity statusQuantity operands
  whenIdle s (typedTransact (.bits start quantity) 0x01 (twoWordPayload start quantity))

/-- READ_ALARMS: function code 0x02, default quantity 32, bits (42_read_ops.md R122). -/
def execReadAlarms (operands : ReadOperands) (s : State) : Out :=
  let start := readStart operands
  let quantity := readQuantity alarmsQuantity operands
  whenIdle s (typedTransact (.bits start quantity) 0x02 (twoWordPayload start quantity))

/-- READ_SENSORS: function code 0x03, default quantity 36, words under SENSOR_SCALE (42_read_ops.md R124). -/
def execReadSensors (operands : ReadOperands) (s : State) : Out :=
  let start := readStart operands
  let quantity := readQuantity sensorsQuantity operands
  whenIdle s (typedTransact (.words .sensor start quantity) 0x03 (twoWordPayload start quantity))

/-- READ_CONFIGURATION: function code 0x03, default quantity 21, words under CONFIG_SCALE (42_read_ops.md R125). -/
def execReadConfiguration (operands : ReadOperands) (s : State) : Out :=
  let start := readStart operands
  let quantity := readQuantity configurationQuantity operands
  whenIdle s (typedTransact (.words .configuration start quantity) 0x03 (twoWordPayload start quantity))

end Sys2Proof.Machine
end

