-- ==== Sys2Proof/Machine/Transaction.lean ====
section
/-! DEFINITION. SEND_REQUEST (44_transaction.md R170). -/

namespace Sys2Proof.Machine

/-- SEND_REQUEST: open, build with UNIT_ID, write, read, close, validate; the validated frame whole (44_transaction.md R170). -/
def execSendRequest (fn : Byte) (payload : List Byte) (s : State) : Out :=
  whenIdle s (transact .raw fn payload)

end Sys2Proof.Machine
end

