-- ==== Sys2Proof/Machine/Wire.lean ====
section
/-! DEFINITION. The thirteen wire rows: a request row is the sending half of its operation's exchange, a response row the receiving half (30_encoding.md R54 to R62, R70; log 9, log 10). -/

namespace Sys2Proof.Machine

/-- REQ_READ_01, sent by READ_STATUS (30_encoding.md R54, 42_read_ops.md R121). -/
def execReqRead01 (unit : Byte) (start quantity : Word16) (s : State) : Out :=
  whenIdle s (sendRow (.bits start quantity) unit 0x01 (twoWordPayload start quantity))

/-- REQ_READ_02, sent by READ_ALARMS (30_encoding.md R54, 42_read_ops.md R122). -/
def execReqRead02 (unit : Byte) (start quantity : Word16) (s : State) : Out :=
  whenIdle s (sendRow (.bits start quantity) unit 0x02 (twoWordPayload start quantity))

/-- REQ_READ_03, sent by READ_SENSORS and READ_CONFIGURATION; which of the two is not in the frame, so the table is a free value
(30_encoding.md R54, 42_read_ops.md R124, R125; DESIGN CHOICE, log 11). -/
def execReqRead03 (unit : Byte) (start quantity : Word16) (s : State) : Out :=
  whenIdle s (sendRow (.words (Config.wireTableDraw s.link.openDraws) start quantity) unit 0x03 (twoWordPayload start quantity))

/-- REQ_WRITE_COIL_05, sent by WRITE_SINGLE_COIL (30_encoding.md R55, 43_write_ops.md R150). -/
def execReqWriteCoil05 (unit : Byte) (address : Word16) (value : Bool) (s : State) : Out :=
  whenIdle s (sendRow .echo unit 0x05 (twoWordPayload address (coilWord value)))

/-- REQ_WRITE_REG_06, sent by WRITE_SINGLE_REGISTER (30_encoding.md R56, 43_write_ops.md R152). -/
def execReqWriteReg06 (unit : Byte) (address value : Word16) (s : State) : Out :=
  whenIdle s (sendRow .echo unit 0x06 (twoWordPayload address value))

/-- REQ_WRITE_MULTI_10, sent by WRITE_MULTIPLE_REGISTERS, which refuses more than 127 values (30_encoding.md R57, 43_write_ops.md R154, R156). -/
def execReqWriteMulti10 (unit : Byte) (start : Word16) (values : List Word16) (s : State) : Out :=
  whenIdle s fun s =>
    if values.length ≤ writeMultipleMax then sendRow .echoPrefix unit 0x10 (multiplePayload start values) s
    else raise .operandRefused s

/-- RSP_BITS_01, decoded by DecodeBits for a read of bits (30_encoding.md R58, 42_read_ops.md R123). -/
def execRspBits01 (unit : Byte) (bitfield : List Byte) (crc : Word16) (s : State) : Out :=
  receiveRow (responseFrame unit 0x01 (bitsPayload bitfield) crc) s

/-- RSP_BITS_02, decoded by DecodeBits for a read of bits (30_encoding.md R58, 42_read_ops.md R123). -/
def execRspBits02 (unit : Byte) (bitfield : List Byte) (crc : Word16) (s : State) : Out :=
  receiveRow (responseFrame unit 0x02 (bitsPayload bitfield) crc) s

/-- RSP_WORDS_03, decoded by DecodeWords for a read of words (30_encoding.md R59, 42_read_ops.md R126). -/
def execRspWords03 (unit : Byte) (words : List Word16) (crc : Word16) (s : State) : Out :=
  receiveRow (responseFrame unit 0x03 (wordsPayload words) crc) s

/-- RSP_ECHO_05, compared whole with the request (30_encoding.md R60, 43_write_ops.md R153). -/
def execRspEcho05 (unit : Byte) (address coilWord crc : Word16) (s : State) : Out :=
  receiveRow (responseFrame unit 0x05 (twoWordPayload address coilWord) crc) s

/-- RSP_ECHO_06, compared whole with the request (30_encoding.md R60, 43_write_ops.md R153). -/
def execRspEcho06 (unit : Byte) (address value crc : Word16) (s : State) : Out :=
  receiveRow (responseFrame unit 0x06 (twoWordPayload address value) crc) s

/-- RSP_WRITE_MULTI_10, its first six bytes compared with the request (30_encoding.md R61, 43_write_ops.md R155). -/
def execRspWriteMulti10 (unit : Byte) (payload : List Byte) (crc : Word16) (s : State) : Out :=
  receiveRow (responseFrame unit 0x10 payload crc) s

/-- RSP_EXCEPTION, the failure of check 4 when its trailer is right (30_encoding.md R62, 41_frame_codec.md R106, R107). -/
def execRspException (unit : Byte) (function : BitVec 7) (payload : List Byte) (crc : Word16) (s : State) : Out :=
  receiveRow (responseFrame unit (exceptionFunction function) payload crc) s

end Sys2Proof.Machine
end

