-- ==== Sys2Proof/Machine/Writes.lean ====
section
/-! DEFINITION. The three write operations (43_write_ops.md R150 to R159). -/

namespace Sys2Proof.Machine

/-- WRITE_SINGLE_COIL: address and coil word, full echo (43_write_ops.md R150). -/
def execWriteSingleCoil (address : Word16) (value : Bool) (s : State) : Out :=
  whenIdle s (typedTransact .echo 0x05 (twoWordPayload address (coilWord value)))

/-- WRITE_SINGLE_REGISTER: address and raw word, full echo (43_write_ops.md R152). -/
def execWriteSingleRegister (address value : Word16) (s : State) : Out :=
  whenIdle s (typedTransact .echo 0x06 (twoWordPayload address value))

/-- WRITE_MULTIPLE_REGISTERS: more than 127 values are refused before anything is sent; six-byte prefix echo (43_write_ops.md R154 to R156). -/
def execWriteMultipleRegisters (start : Word16) (values : List Word16) (s : State) : Out :=
  whenIdle s fun s =>
    if values.length ≤ writeMultipleMax then typedTransact .echoPrefix 0x10 (multiplePayload start values) s
    else raise .operandRefused s

end Sys2Proof.Machine
end

