-- ==== Sys2Proof/Machine/Dispatch.lean ====
section
/-! DEFINITION. One arm per constructor of Instr. -/

namespace Sys2Proof.Machine

def exec (i : Instr) (s : State) : Host.Outcome State Fault Refusal :=
  match i with
  | .crc16 bytes => Sys2Proof.Machine.execCrc16 bytes s
  | .buildRequest unitId functionCode payload => Sys2Proof.Machine.execBuildRequest unitId functionCode payload s
  | .validateResponse frame expectedUnitId => Sys2Proof.Machine.execValidateResponse frame expectedUnitId s
  | .sendRequest functionCode payload => Sys2Proof.Machine.execSendRequest functionCode payload s
  | .readStatus operands => Sys2Proof.Machine.execReadStatus operands s
  | .readAlarms operands => Sys2Proof.Machine.execReadAlarms operands s
  | .readSensors operands => Sys2Proof.Machine.execReadSensors operands s
  | .readConfiguration operands => Sys2Proof.Machine.execReadConfiguration operands s
  | .writeSingleCoil address value => Sys2Proof.Machine.execWriteSingleCoil address value s
  | .writeSingleRegister address value => Sys2Proof.Machine.execWriteSingleRegister address value s
  | .writeMultipleRegisters startAddress values => Sys2Proof.Machine.execWriteMultipleRegisters startAddress values s
  | .reqRead01 unit start quantity => Sys2Proof.Machine.execReqRead01 unit start quantity s
  | .reqRead02 unit start quantity => Sys2Proof.Machine.execReqRead02 unit start quantity s
  | .reqRead03 unit start quantity => Sys2Proof.Machine.execReqRead03 unit start quantity s
  | .reqWriteCoil05 unit address value => Sys2Proof.Machine.execReqWriteCoil05 unit address value s
  | .reqWriteReg06 unit address value => Sys2Proof.Machine.execReqWriteReg06 unit address value s
  | .reqWriteMulti10 unit start values => Sys2Proof.Machine.execReqWriteMulti10 unit start values s
  | .rspBits01 unit bitfield crc => Sys2Proof.Machine.execRspBits01 unit bitfield crc s
  | .rspBits02 unit bitfield crc => Sys2Proof.Machine.execRspBits02 unit bitfield crc s
  | .rspWords03 unit words crc => Sys2Proof.Machine.execRspWords03 unit words crc s
  | .rspEcho05 unit address coilWord crc => Sys2Proof.Machine.execRspEcho05 unit address coilWord crc s
  | .rspEcho06 unit address value crc => Sys2Proof.Machine.execRspEcho06 unit address value crc s
  | .rspWriteMulti10 unit payload crc => Sys2Proof.Machine.execRspWriteMulti10 unit payload crc s
  | .rspException unit function payload crc => Sys2Proof.Machine.execRspException unit function payload crc s

end Sys2Proof.Machine
end

