-- ==== Sys2Proof/Machine/Intake.lean ====
section
/-! DEFINITION. What a step does with the item presented next: run the instruction it decodes to, or answer the rejection (00_scope.md R8, 30_encoding.md R67, R70). -/

namespace Sys2Proof.Machine

/-- A rejected item. An illegal selector delivers IllegalOperation (60_exceptions.md R198). Received bytes with no row of their own are received like any
others: the validator judges them (30_encoding.md R66). Operand bytes that fit no port, and request frames the block never builds, are refused. -/
def runRejected (r : Reject) (p : Presented) (s : State) : Out :=
  match r with
  | .illegalOperation _ => illegalOperation s
  | .operandsDoNotFit _ => .refused .operandsDoNotFit
  | .noRequestRow => .refused .noRequestRow
  | .noResponseRow =>
    match p with
    | .rsp frame => receiveRow frame s
    | .cmd _ _ => .refused .operandsDoNotFit
    | .req _ => .refused .noRequestRow

/-- The item presented next, taken off the input; none when the block is idle (60_exceptions.md R203). -/
def takePresented (s : State) : Option (Presented × State) :=
  match s.presented with
  | [] => none
  | p :: rest => some (p, { s with presented := rest })

/-- One item: decode it and run it. -/
def runPresented (p : Presented) (s : State) : Out :=
  match decode p with
  | .instr i => exec i s
  | .rejected r => runRejected r p s

/-- The host presents an item as the next to be taken (log 2). -/
def presentNext (p : Presented) (s : State) : State := { s with presented := p :: s.presented }

end Sys2Proof.Machine
end

