-- ==== Sys2Proof/Machine/Step.lean ====
section
/-! DEFINITION. One step of the machine: the next presented item runs to its end; with nothing presented the block is idle (60_exceptions.md R200, R203). -/

namespace Sys2Proof.Machine

/-- The step. -/
def step (s : State) : Host.Outcome State Fault Refusal :=
  match takePresented s with
  | none => .next s
  | some (p, s') => runPresented p s'

/-- The state whose next step runs the instruction of a word of the opcode table: the item is presented next (log 2, log 15). -/
def State.withFetchWord (s : State) (nbits w : Nat) : State := presentNext (tablePresented nbits w) s

end Sys2Proof.Machine
end

