-- ==== Sys2Proof/Machine/Client.lean ====
section
/-! DEFINITION. What the host does to a client instance besides waiting: construct it, present operations, destroy it (10_state.md R23; 70_reset_and_hazards.md R220, R222, R223). -/

namespace Sys2Proof.Machine

/-- A client instance, or none (70_reset_and_hazards.md R222). Several instances share nothing (60_exceptions.md R204). -/
inductive Client where
  | absent
  | live (s : State)
deriving DecidableEq, Repr

/-- Construction: UNIT_ID is 1 when none is given; without HOST or PORT there is no instance (10_state.md R11, R23; 93_implementation_defined.md U12). -/
def Client.construct (unitId : Option Byte) (host : Option String) (port : Option Int) : Client :=
  match host, port with
  | some h, some p => .live (State.construct (unitId.getD 1) h p)
  | _, _ => .absent

/-- The host presents an item after those already presented; nothing can be presented to an instance that does not exist (70_reset_and_hazards.md R222). -/
def Client.present (p : Presented) : Client → Option Client
  | .absent => none
  | .live s => some (.live { s with presented := s.presented ++ [p] })

/-- Destruction: "destroyed with the client"; between operations nothing needs to be flushed or closed (70_reset_and_hazards.md R222).
DESIGN CHOICE (log 30): a client destroyed while a request row's exchange is in flight is dropped as it stands, CONN open, with no
`link.close()` and no result; the spec speaks only of destruction between operations (R222; 44_transaction.md R172). -/
def Client.destroy : Client → Client
  | .absent => .absent
  | .live _ => .absent

/-- A step of an instance that exists. -/
def Client.step : Client → Option Out
  | .absent => none
  | .live s => some (Machine.step s)

end Sys2Proof.Machine
end

