-- ==== Sys2Proof/Safety.lean ====
section
/-! DEFINITION. What counts as a good state, a good frame and a good run of the link port, and the frames of the operations, in the terms the statements use. -/

namespace Sys2Proof.Machine

/-! ### Good frames and good results -/

/-- A good frame: at least four bytes, the trailer right (41_frame_codec.md R110). -/
def GoodFrame (frame : List Byte) : Prop := minFrame ≤ frame.length ∧ trailerRight frame = true

/-- The addresses of a RegisterValueSet in its order (42_read_ops.md R133). -/
def ValueSet.addresses : ValueSet → List Nat
  | .bits entries => entries.map Prod.fst
  | .words entries => entries.map Prod.fst

/-- A result that keeps the promises of R110 and R133: a delivered frame is good, the addresses of a value set strictly ascend. -/
def GoodResult : Result → Prop
  | .ok (.outFrame frame) => GoodFrame frame
  | .ok (.valueSet v) => v.addresses.Pairwise (· < ·)
  | .ok (.crcOut _) => True
  | .ok .done => True
  | .failed _ => True

/-- One bit of one byte of a frame flipped (40_crc.md R87, 41_frame_codec.md R112). -/
def flipBit (frame : List Byte) (i k : Nat) : List Byte := frame.modify i fun b => b ^^^ (1#8 <<< k)

/-! ### The invariant of every step -/

/-- No working register is alive (10_state.md R24). -/
def WorkDead (s : State) : Prop := s.crcGen = none ∧ s.txbuf = none ∧ s.rxbuf = none

/-- Between operations: connection closed, working registers dead (10_state.md R24). -/
def AtRest (s : State) : Prop := s.conn = .closed ∧ WorkDead s

/-- While a request is out: connection open, no result yet, TXBUF holds a good frame within TX_CAP and nothing else is alive (10_state.md R15, R24). -/
def InFlight (s : State) : Prop :=
  s.conn = .opened ∧ s.result = none ∧ s.crcGen = none ∧ s.rxbuf = none ∧
    ∃ frame, s.txbuf = some frame ∧ GoodFrame frame ∧ ∀ cap, s.txCap = some cap → frame.length ≤ cap

/-- The invariant: at rest or in flight, as `exchange` says, and the last result is good. -/
def Inv (s : State) : Prop :=
  (s.exchange = none → AtRest s) ∧ (s.exchange ≠ none → InFlight s) ∧ ∀ r, s.result = some r → GoodResult r

/-! ### The order at the link port -/

/-- Where the link port stands inside one connection (44_transaction.md R170). -/
inductive LinkPhase where
  | idle
  | connected
  | sent
  | ending
deriving DecidableEq, Repr

/-- The events R170 allows next: open, one write, one read of at most 256 bytes, close; after an error or a refusal, close (44_transaction.md R172, R173, R175, R176). -/
def LinkPhase.next : LinkPhase → LinkEvent → Option LinkPhase
  | .idle, .opened => some .connected
  | .idle, .openFailed _ => some .idle
  | .connected, .wrote _ => some .sent
  | .connected, .writeFailed _ => some .ending
  | .connected, .closed => some .idle
  | .sent, .read bytes => if bytes.length ≤ rxMax then some .ending else none
  | .sent, .readFailed _ => some .ending
  | .ending, .closed => some .idle
  | _, _ => none

/-- The phase a record of events leads to from `idle`; none when the order is broken. -/
def linkPhase (log : List LinkEvent) : Option LinkPhase :=
  log.foldl (fun p e => p.bind (·.next e)) (some .idle)

/-- The record keeps R170's order and agrees with the exchange in flight. -/
def LinkOrder (s : State) : Prop :=
  linkPhase s.link.log = some (match s.exchange with | none => .idle | some _ => .sent)

/-! ### Frames -/

/-- The configuration is untouched (10_state.md R11, R12): UNIT_ID, HOST, PORT, TIMEOUT, TX_CAP, LINK_IO_ERROR. -/
def ConfigKept (s t : State) : Prop :=
  t.unitId = s.unitId ∧ t.host = s.host ∧ t.port = s.port ∧ t.timeoutSeconds = s.timeoutSeconds ∧
    t.txCap = s.txCap ∧ t.linkIoError = s.linkIoError

/-- The operation is over: the configuration and the input are untouched, no exchange is in flight, every working register is dead (10_state.md R24, 60_exceptions.md R193). -/
def Over (s t : State) : Prop :=
  ConfigKept s t ∧ t.presented = s.presented ∧ t.exchange = none ∧ WorkDead t

/-- Over, and the link port was not touched at all (44_transaction.md R176). -/
def OverOffLink (s t : State) : Prop := Over s t ∧ t.link = s.link ∧ t.conn = s.conn

/-- The link port after events that used `o` answers of `link.open`, `w` of `link.write` and `r` of `link.read`. -/
def linkAfter (k : Link) (o w r : Nat) (events : List LinkEvent) : Link :=
  { opens := k.opens.drop o, openDraws := k.openDraws + o, writes := k.writes.drop w, writeDraws := k.writeDraws + w,
    reads := k.reads.drop r, readDraws := k.readDraws + r, log := k.log ++ events }

/-- Over after a whole round trip: open, write of the request, one read, close (44_transaction.md R170). -/
def OverRoundTrip (s t : State) (request received : List Byte) : Prop :=
  Over s t ∧ t.conn = .closed ∧
    t.link = linkAfter s.link 1 1 1 [.opened, .wrote request, .read received, .closed]

/-- The link agent lets the connection and the write through and answers the read with these bytes. -/
def LinkAnswers (s : State) (received : List Byte) : Prop :=
  openAnswer s = .ok ∧ writeAnswer s = .ok ∧ ∃ a, readAnswer s = a ∧ (∀ e, a ≠ .ioError e) ∧ readBytes a = received

/-- The request a typed operation sends: its function code and payload (30_encoding.md R53 to R57). -/
def typedRequest : Instr → Option (Byte × List Byte)
  | .readStatus r => some (0x01, twoWordPayload (readStart r) (readQuantity 10 r))
  | .readAlarms r => some (0x02, twoWordPayload (readStart r) (readQuantity 32 r))
  | .readSensors r => some (0x03, twoWordPayload (readStart r) (readQuantity 36 r))
  | .readConfiguration r => some (0x03, twoWordPayload (readStart r) (readQuantity 21 r))
  | .writeSingleCoil a v => some (0x05, twoWordPayload a (if v then 0xFF00 else 0x0000))
  | .writeSingleRegister a v => some (0x06, twoWordPayload a v)
  | .writeMultipleRegisters a vs => if vs.length ≤ 127 then some (0x10, multiplePayload a vs) else none
  | .crc16 _ => none
  | .buildRequest _ _ _ => none
  | .validateResponse _ _ => none
  | .sendRequest _ _ => none
  | .reqRead01 _ _ _ => none
  | .reqRead02 _ _ _ => none
  | .reqRead03 _ _ _ => none
  | .reqWriteCoil05 _ _ _ => none
  | .reqWriteReg06 _ _ _ => none
  | .reqWriteMulti10 _ _ _ => none
  | .rspBits01 _ _ _ => none
  | .rspBits02 _ _ _ => none
  | .rspWords03 _ _ _ => none
  | .rspEcho05 _ _ _ _ => none
  | .rspEcho06 _ _ _ _ => none
  | .rspWriteMulti10 _ _ _ => none
  | .rspException _ _ _ _ => none

/-- The events of a record that write a frame to the link. -/
def LinkEvent.isWrite : LinkEvent → Bool
  | .wrote _ => true
  | .opened => false
  | .openFailed _ => false
  | .writeFailed _ => false
  | .read _ => false
  | .readFailed _ => false
  | .closed => false

/-- The events of a record that read from the link. -/
def LinkEvent.isRead : LinkEvent → Bool
  | .read _ => true
  | .opened => false
  | .openFailed _ => false
  | .wrote _ => false
  | .writeFailed _ => false
  | .readFailed _ => false
  | .closed => false

end Sys2Proof.Machine
end

