-- ==== Sys2Proof/Certificates/Slice0/Obligations.lean ====
section
/-! DEFINITION. The statements for the provers. Each docstring names the rule of spec/ it rests on; where a clause is the model's own choice, the docstring names the log entry. -/

open Sys2Proof Sys2Proof.Machine

/-! ### The CRC16 generator -/

/-- 40_crc.md R80, R84, R85; 20_memory.md R38: CRC16 always completes, CRC_OUT is the left fold of the byte step from 0xFFFF, and nothing else changes. -/
def Obligations.Crc16DeliversTheBytewiseFold : Prop :=
  ∀ (s : State) (bytes : List Byte), s.exchange = none →
    ∃ t, exec (.crc16 bytes) s = .next t ∧ OverOffLink s t ∧
      t.result = some (.ok (.crcOut (bytes.foldl (fun c b => crcBitSteps 8 (c ^^^ b.setWidth 16)) 0xFFFF)))

/-- 40_crc.md R82: the byte is XORed into bits 7 to 0; bits 15 to 8 are unchanged. -/
def Obligations.CrcAbsorbTouchesTheLowByteOnly : Prop :=
  ∀ (c : Word16) (b : Byte),
    crcAbsorb c b = c ^^^ b.setWidth 16 ∧ lo8 (crcAbsorb c b) = lo8 c ^^^ b ∧ hi8 (crcAbsorb c b) = hi8 c

/-- 40_crc.md R83: the bit step, its bit 15, and the rule's six examples. -/
def Obligations.CrcBitStepShiftsThenXors : Prop :=
  (∀ c : Word16,
    (c >>> 1).getLsbD 15 = false ∧ (∀ i, i < 15 → (c >>> 1).getLsbD i = c.getLsbD (i + 1)) ∧
    (c.getLsbD 0 = true → crcBitStep c = (c >>> 1) ^^^ 0xA001) ∧
    (c.getLsbD 0 = false → crcBitStep c = c >>> 1) ∧
    (crcBitStep c).getLsbD 15 = c.getLsbD 0) ∧
  crcBitStep 0x0001 = 0xA001 ∧ crcBitStep 0x0000 = 0x0000 ∧ crcBitStep 0xFFFF = 0xDFFE ∧
  crcBitStep 0x8000 = 0x4000 ∧ crcBitStep 0xA001 = 0xF001 ∧ crcBitStep 0x0002 = 0x0001

/-- 40_crc.md R88: on the empty input no byte is absorbed, no bit step is done, and the result is the initial value.
That BYTEIDX and BITCNT then hold 0 is the model's choice (log 27). -/
def Obligations.CrcOfTheEmptyInputIsFFFF : Prop :=
  crc16 [] = 0xFFFF ∧ (CrcGen.run []).crc = 0xFFFF ∧ (CrcGen.run []).byteIdx = 0 ∧ (CrcGen.run []).bitCnt = 0 ∧
  ∀ s : State, s.exchange = none → ∃ t, exec (.crc16 []) s = .next t ∧ t.crcOut = some 0xFFFF

/-- 40_crc.md R86: a body followed by its CRC, low byte first, has CRC 0; only those two bytes do it; and the two tests of a trailer accept the same frames. -/
def Obligations.CrcResidueIsZero : Prop :=
  (∀ m : List Byte, crc16 (m ++ [lo8 (crc16 m), hi8 (crc16 m)]) = 0) ∧
  (∀ (m : List Byte) (x y : Byte), crc16 (m ++ [x, y]) = 0 → x = lo8 (crc16 m) ∧ y = hi8 (crc16 m)) ∧
  (∀ frame : List Byte, 2 ≤ frame.length → (crc16 frame = 0 ↔ trailerRight frame = true))

/-- 40_crc.md R87: affinity; a single 1 bit never has CRC16_0 zero; a flipped bit changes the CRC; a flipped bit makes a right trailer wrong. -/
def Obligations.CrcCatchesEverySingleBit : Prop :=
  (∀ a e : List Byte, a.length = e.length → crc16 (List.zipWith (· ^^^ ·) a e) = crc16 a ^^^ crcFrom 0 e) ∧
  (∀ n i k : Nat, i < n → k < 8 → crcFrom 0 (flipBit (List.replicate n 0) i k) ≠ 0) ∧
  (∀ (m : List Byte) (i k : Nat), i < m.length → k < 8 → crc16 (flipBit m i k) ≠ crc16 m) ∧
  (∀ (frame : List Byte) (i k : Nat), trailerRight frame = true → i < frame.length → k < 8 →
    trailerRight (flipBit frame i k) = false)

/-- 40_crc.md R89: the table-driven form computes the same function, and the entries the rule lists. -/
def Obligations.CrcTableFormComputesTheSame : Prop :=
  (∀ bytes : List Byte, crc16ByTable bytes = crc16 bytes) ∧
  crcTableEntry 0x00 = 0x0000 ∧ crcTableEntry 0x01 = 0xC0C1 ∧ crcTableEntry 0x02 = 0xC181 ∧
  crcTableEntry 0x03 = 0x0140 ∧ crcTableEntry 0x80 = 0xA001 ∧ crcTableEntry 0xFF = 0x4040

/-! ### BUILD_REQUEST and VALIDATE_RESPONSE -/

/-- 41_frame_codec.md R100, R101: unit id, function code, payload, CRC low byte, CRC high byte, for every operand; refused exactly when
a finite TX_CAP is too small.
TX_CAP and its refusal are the spec's own decision D7 (log 18). -/
def Obligations.BuildRequestLaysTheFrameDown : Prop :=
  ∀ (s : State) (unit fn : Byte) (payload : List Byte), s.exchange = none →
    ∃ t, exec (.buildRequest unit fn payload) s = .next t ∧ OverOffLink s t ∧
      ((∀ cap, s.txCap = some cap → payload.length + 4 ≤ cap) →
        t.result = some (.ok (.outFrame (unit :: fn :: (payload ++
          [lo8 (crc16 (unit :: fn :: payload)), hi8 (crc16 (unit :: fn :: payload))]))))) ∧
      (∀ cap, s.txCap = some cap → cap < payload.length + 4 → t.result = some (.failed .operandRefused))

/-- 41_frame_codec.md R102 to R108: the four checks in their order, on every byte sequence.
That success returns the whole frame is the spec's own decision D9, and that the code of a
four-byte exception frame is its CRC low byte (R107) is D10 (both adopted in log 18; D10 is unsafe there). -/
def Obligations.ValidateResponseMakesFourChecksInOrder : Prop :=
  ∀ (s : State) (frame : List Byte) (expected : Option Byte), s.exchange = none →
    ∃ t, exec (.validateResponse frame expected) s = .next t ∧ OverOffLink s t ∧
      (frame.length = 0 → t.result = some (.failed .emptyResponse)) ∧
      (1 ≤ frame.length → frame.length ≤ 3 → t.result = some (.failed .frameTooShort)) ∧
      (∀ (unit fn low high : Byte) (payload : List Byte), frame = unit :: fn :: (payload ++ [low, high]) →
        ((crc16 (unit :: fn :: payload)).toNat ≠ low.toNat + 256 * high.toNat → t.result = some (.failed .crcMismatch)) ∧
        ((crc16 (unit :: fn :: payload)).toNat = low.toNat + 256 * high.toNat → fn.getLsbD 7 = false →
          t.result = some (.ok (.outFrame frame))) ∧
        ((crc16 (unit :: fn :: payload)).toNat = low.toNat + 256 * high.toNat → fn.getLsbD 7 = true →
          ∀ code, frame[2]? = some code → t.result = some (.failed (exceptionFailure code))))

/-- 60_exceptions.md R195, R190; 41_frame_codec.md R106: an exception response carries its code, and exactly for the six codes of the table the name and text; STATUS is 5 for those, 6 for any other.
The codes and texts are R195's; the STATUS numbers are the spec's own decision D5 (log 18), and that any other code is a failure of its own is R106, D28. -/
def Obligations.ExceptionCodesFollowTheTable : Prop :=
  ∀ (s : State) (unit code : Byte) (function : BitVec 7), s.exchange = none →
    ∃ t, exec (.validateResponse (requestFrame unit (exceptionFunction function) [code]) none) s = .next t ∧
      t.excCode = some code ∧
      (code = 0x01 → t.status = some 5 ∧ t.excText = some "Illegal function") ∧
      (code = 0x02 → t.status = some 5 ∧ t.excText = some "Illegal data address") ∧
      (code = 0x03 → t.status = some 5 ∧ t.excText = some "Illegal data value") ∧
      (code = 0x04 → t.status = some 5 ∧ t.excText = some "Slave device failure") ∧
      (code = 0x06 → t.status = some 5 ∧ t.excText = some "Slave device busy") ∧
      (code = 0x0C → t.status = some 5 ∧ t.excText = some "CRC check failure") ∧
      (code ∉ [0x01, 0x02, 0x03, 0x04, 0x06, 0x0C] →
        t.result = some (.failed (.unknownModbusException code)) ∧ t.status = some 6 ∧ t.excText = none)

/-- 41_frame_codec.md R109: VALIDATE_RESPONSE succeeds or fails identically whatever `expectedUnitId` is and whether or not it is given.
The spec's own decision D8 (log 18, unsafe). -/
def Obligations.ExpectedUnitIdIsIgnored : Prop :=
  ∀ (s : State) (frame : List Byte) (e e' : Option Byte),
    exec (.validateResponse frame e) s = exec (.validateResponse frame e') s

/-- 41_frame_codec.md R107, R111: what BUILD_REQUEST builds, VALIDATE_RESPONSE returns unchanged, for every function code with bit 7 clear; with
bit 7 set it is the exception whose code is the first payload byte, or the CRC low byte when the payload is empty.
That the CRC low byte is the code of an empty payload rests on R107, the spec's own decision D10 (log 18, unsafe); that the whole frame
comes back is D9 (log 18). -/
def Obligations.BuildThenValidateRoundTrip : Prop :=
  ∀ (s : State) (unit fn : Byte) (payload : List Byte), s.exchange = none → s.txCap = none →
    ∃ t frame u, exec (.buildRequest unit fn payload) s = .next t ∧ t.outFrame = some frame ∧
      exec (.validateResponse frame none) t = .next u ∧
      (fn.getLsbD 7 = false → u.result = some (.ok (.outFrame frame)) ∧ frameBody frame = unit :: fn :: payload) ∧
      (fn.getLsbD 7 = true →
        u.result = some (.failed (exceptionFailure (payload.headD (lo8 (crc16 (unit :: fn :: payload)))))))

/-- 41_frame_codec.md R112: a frame whose CRC is right (it passes, or fails only at check 4), with any one bit of any one byte flipped, is
CrcMismatch; several flips may leave the CRC right. -/
def Obligations.AnySingleBitFlipIsCrcMismatch : Prop :=
  (∀ (s : State) (frame : List Byte) (expected : Option Byte) (i k : Nat), s.exchange = none →
    (validate frame = none ∨ ∃ code, validate frame = some (exceptionFailure code)) → i < frame.length → k < 8 →
      ∃ t, exec (.validateResponse (flipBit frame i k) expected) s = .next t ∧ OverOffLink s t ∧
        t.result = some (.failed .crcMismatch)) ∧
  ∃ frame altered : List Byte, frame.length = altered.length ∧ frame ≠ altered ∧ validate frame = none ∧ validate altered = none

/-- 41_frame_codec.md R114: two zero bytes after a frame with a right CRC give a frame with a right CRC, and a longer payload. -/
def Obligations.TwoExtraZeroBytesStillValidate : Prop :=
  (∀ frame : List Byte, trailerRight frame = true → trailerRight (frame ++ [0, 0]) = true) ∧
  (∀ (s : State) (frame : List Byte), s.exchange = none → validate frame = none →
    ∃ t, exec (.validateResponse (frame ++ [0, 0]) none) s = .next t ∧ t.outFrame = some (frame ++ [0, 0]) ∧
      frameData (frame ++ [0, 0]) = frame.drop 2) ∧
  validate [0x01, 0x03, 0x00, 0x00, 0x00, 0x0A, 0xC5, 0xCD, 0x00, 0x00] = none ∧
  frameData [0x01, 0x03, 0x00, 0x00, 0x00, 0x0A, 0xC5, 0xCD, 0x00, 0x00] = [0x00, 0x00, 0x00, 0x0A, 0xC5, 0xCD]

/-! ### SEND_REQUEST and the link -/

/-- 44_transaction.md R170, R172, R173, R180: open, write of the frame with UNIT_ID, one read of at most 256 bytes, close, then the validator's verdict. -/
def Obligations.SendRequestIsOneRoundTrip : Prop :=
  ∀ (s : State) (fn : Byte) (payload received : List Byte), s.exchange = none → fitsTx s payload = true →
    LinkAnswers s received →
      ∃ t, exec (.sendRequest fn payload) s = .next t ∧ received.length ≤ 256 ∧
        OverRoundTrip s t (s.unitId :: fn :: (payload ++
          [lo8 (crc16 (s.unitId :: fn :: payload)), hi8 (crc16 (s.unitId :: fn :: payload))])) received ∧
        t.result = some (validationResult received)

/-- 44_transaction.md R173, R174; 70_reset_and_hazards.md R225: a longer delivery is cut at 256 bytes; a read that times out or finds the connection closed is a reply of no bytes, EmptyResponse.
That a timeout or a closed peer answers the empty sequence is the spec's own decision D18 (log 18). -/
def Obligations.TheReadIsCutOrEmpty : Prop :=
  ∀ (s : State) (fn : Byte) (payload : List Byte), s.exchange = none → fitsTx s payload = true →
    openAnswer s = .ok → writeAnswer s = .ok →
      (∀ bs, readAnswer s = .bytes bs →
        ∃ t, exec (.sendRequest fn payload) s = .next t ∧ t.result = some (validationResult (bs.take 256))) ∧
      ((readAnswer s = .timeout ∨ readAnswer s = .peerClosed) →
        ∃ t, exec (.sendRequest fn payload) s = .next t ∧ t.result = some (.failed .emptyResponse) ∧
          t.conn = .closed ∧ t.link.log = s.link.log ++ [.opened, .wrote (requestFrame s.unitId fn payload), .read [], .closed])

/-- 60_exceptions.md R191, R201; 44_transaction.md R172, R175: a connection that fails ends SEND_REQUEST and every typed operation with ConnectionFailed and the
link agent's own pair, with nothing written, read or closed. -/
def Obligations.ConnectionFailedComesFirstAndSendsNothing : Prop :=
  ∀ (s : State) (i : Instr) (fn : Byte) (payload : List Byte) (e : LinkErr), s.exchange = none →
    (i = .sendRequest fn payload ∨ typedRequest i = some (fn, payload)) → fitsTx s payload = true → openAnswer s = .fail e →
      ∃ t, exec i s = .next t ∧ Over s t ∧ t.result = some (.failed (.connectionFailed e)) ∧ t.linkErr = some e ∧
        t.conn = s.conn ∧ t.link = linkAfter s.link 1 0 0 [.openFailed e]

/-- 44_transaction.md R172, R175: an I/O error of the write or the read ends the operation after `link.close()`, with LINK_IO_ERROR's failure, ConnectionFailed by default.
The mapping is the spec's own decision D18 (log 18) as the model reads it (log 21). -/
def Obligations.LinkIoErrorsCloseTheConnection : Prop :=
  ∀ (s : State) (i : Instr) (fn : Byte) (payload : List Byte) (e : LinkErr), s.exchange = none →
    (i = .sendRequest fn payload ∨ typedRequest i = some (fn, payload)) → fitsTx s payload = true → openAnswer s = .ok →
      (writeAnswer s = .ioError e →
        ∃ t, exec i s = .next t ∧ Over s t ∧ t.conn = .closed ∧
          t.link = linkAfter s.link 1 1 0 [.opened, .writeFailed e, .closed] ∧
          (s.linkIoError = none → t.result = some (.failed (.connectionFailed e))) ∧
          (∀ f, s.linkIoError = some f → t.result = some (.failed f))) ∧
      (writeAnswer s = .ok → readAnswer s = .ioError e →
        ∃ t, exec i s = .next t ∧ Over s t ∧ t.conn = .closed ∧
          t.link = linkAfter s.link 1 1 1 [.opened, .wrote (requestFrame s.unitId fn payload), .readFailed e, .closed] ∧
          (s.linkIoError = none → t.result = some (.failed (.connectionFailed e))) ∧
          (∀ f, s.linkIoError = some f → t.result = some (.failed f)))

/-- 41_frame_codec.md R110; 42_read_ops.md R120, R136; 60_exceptions.md R193, R201: a response that fails a check of the validator ends SEND_REQUEST and every typed operation
with that same failure, after the whole round trip. -/
def Obligations.ValidatorFailuresPropagateUnchanged : Prop :=
  ∀ (s : State) (i : Instr) (fn : Byte) (payload received : List Byte) (f : Failure), s.exchange = none →
    (i = .sendRequest fn payload ∨ typedRequest i = some (fn, payload)) → fitsTx s payload = true →
    LinkAnswers s received → validate received = some f →
      ∃ t, exec i s = .next t ∧ OverRoundTrip s t (requestFrame s.unitId fn payload) received ∧ t.result = some (.failed f)

/-- 42_read_ops.md R136, 43_write_ops.md R157, 44_transaction.md R176 (the order is the model's reading, log 14): under a TX_CAP too small for the request a typed operation is refused with the link
untouched, and SEND_REQUEST is refused after the connection was opened and closed with nothing written. -/
def Obligations.TxCapRefusesBeforeAnythingIsSent : Prop :=
  ∀ (s : State) (cap : Nat), s.exchange = none → s.txCap = some cap →
    (∀ (i : Instr) (fn : Byte) (payload : List Byte), typedRequest i = some (fn, payload) → cap < payload.length + 4 →
      ∃ t, exec i s = .next t ∧ OverOffLink s t ∧ t.result = some (.failed .operandRefused)) ∧
    (∀ (fn : Byte) (payload : List Byte), cap < payload.length + 4 → openAnswer s = .ok →
      ∃ t, exec (.sendRequest fn payload) s = .next t ∧ Over s t ∧ t.conn = .closed ∧
        t.link = linkAfter s.link 1 0 0 [.opened, .closed] ∧ t.result = some (.failed .operandRefused))

/-! ### The read operations -/

/-- 42_read_ops.md R121 to R123, R131, R133, R135; 20_memory.md R34: READ_STATUS and READ_ALARMS complete on every validated response that holds the bits, with one
entry per address, bit `i mod 8` of the byte at offset `3 + i div 8`, addresses not wrapping.
The precondition and the keys that do not wrap are the spec's own decisions D11 and D13 (log 18). -/
def Obligations.BitReadsDecodeLeastSignificantFirst : Prop :=
  ∀ (s : State) (r : ReadOperands) (i : Instr) (fn : Byte) (quantity : Word16) (received : List Byte) (n : Byte),
    ((i = .readStatus r ∧ fn = 0x01 ∧ quantity = readQuantity 10 r) ∨ (i = .readAlarms r ∧ fn = 0x02 ∧ quantity = readQuantity 32 r)) →
    s.exchange = none → fitsTx s (twoWordPayload (readStart r) quantity) = true → LinkAnswers s received →
    validate received = none → received[2]? = some n → 5 ≤ received.length → 3 + n.toNat ≤ received.length - 2 →
    (quantity.toNat + 7) / 8 ≤ n.toNat →
      ∃ t entries, exec i s = .next t ∧
        OverRoundTrip s t (requestFrame s.unitId fn (twoWordPayload (readStart r) quantity)) received ∧
        t.result = some (.ok (.valueSet (.bits entries))) ∧ entries.length = quantity.toNat ∧
        ∀ k, k < quantity.toNat → ∃ b, received[3 + k / 8]? = some b ∧
          entries[k]? = some ((readStart r).toNat + k, b.getLsbD (k % 8))

/-- 42_read_ops.md R124 to R126, R131, R133, R135; 20_memory.md R32: READ_SENSORS and READ_CONFIGURATION complete on every validated response that holds the words, with one entry per
address, the big-endian word at offset `3 + 2k` under the transform of its absolute address in the operation's own table.
The precondition, the keys that do not wrap and the exact fractions are the spec's own decisions D11, D13 and D14 (log 18). -/
def Obligations.WordReadsDecodeAndScaleByAddress : Prop :=
  ∀ (s : State) (r : ReadOperands) (i : Instr) (table : ScaleTable) (quantity : Word16) (received : List Byte) (n : Byte),
    ((i = .readSensors r ∧ table = .sensor ∧ quantity = readQuantity 36 r) ∨
      (i = .readConfiguration r ∧ table = .configuration ∧ quantity = readQuantity 21 r)) →
    s.exchange = none → fitsTx s (twoWordPayload (readStart r) quantity) = true → LinkAnswers s received →
    validate received = none → received[2]? = some n → 5 ≤ received.length → 3 + n.toNat ≤ received.length - 2 →
    2 * quantity.toNat ≤ n.toNat →
      ∃ t entries, exec i s = .next t ∧
        OverRoundTrip s t (requestFrame s.unitId 0x03 (twoWordPayload (readStart r) quantity)) received ∧
        t.result = some (.ok (.valueSet (.words entries))) ∧ entries.length = quantity.toNat ∧
        ∀ k, k < quantity.toNat → ∃ h l, received[3 + 2 * k]? = some h ∧ received[4 + 2 * k]? = some l ∧
          entries[k]? = some ((readStart r).toNat + k, applyTransform (transformAt table ((readStart r).toNat + k)) (be16 h l))

/-- 42_read_ops.md R131, 60_exceptions.md R198: on a validated response the four reads end with DecodeUndefined exactly when (a), (b) or (c) fails.
The precondition is the spec's own decision D11 (log 18). -/
def Obligations.DecodeIsUndefinedExactlyOffShape : Prop :=
  ∀ (s : State) (r : ReadOperands) (i : Instr) (quantity : Word16) (need : Nat) (received : List Byte),
    ((i = .readStatus r ∧ quantity = readQuantity 10 r ∧ need = (quantity.toNat + 7) / 8) ∨
      (i = .readAlarms r ∧ quantity = readQuantity 32 r ∧ need = (quantity.toNat + 7) / 8) ∨
      (i = .readSensors r ∧ quantity = readQuantity 36 r ∧ need = 2 * quantity.toNat) ∨
      (i = .readConfiguration r ∧ quantity = readQuantity 21 r ∧ need = 2 * quantity.toNat)) →
    s.exchange = none → fitsTx s (twoWordPayload (readStart r) quantity) = true → LinkAnswers s received →
    validate received = none →
      ∃ t, exec i s = .next t ∧ Over s t ∧
        (t.result = some (.failed .decodeUndefined) ↔
          ¬ (5 ≤ received.length ∧ ∃ n, received[2]? = some n ∧ 3 + n.toNat ≤ received.length - 2 ∧ need ≤ n.toNat))

/-- 42_read_ops.md R134: a read gives the same result for two validated responses that differ only in unit id, function code and trailer.
The spec's own decision D12 (log 18, unsafe). -/
def Obligations.ReadsCheckNeitherUnitNorFunction : Prop :=
  ∀ (s s' : State) (r : ReadOperands) (i : Instr) (unit unit' fn fn' : Byte) (data : List Byte),
    (i = .readStatus r ∨ i = .readAlarms r ∨ i = .readSensors r ∨ i = .readConfiguration r) →
    s.exchange = none → s'.exchange = none → s.txCap = none → s'.txCap = none →
    fn.getLsbD 7 = false → fn'.getLsbD 7 = false →
    LinkAnswers s (requestFrame unit fn data) → LinkAnswers s' (requestFrame unit' fn' data) →
      ∃ t t', exec i s = .next t ∧ exec i s' = .next t' ∧ t.result = t'.result

/-- 30_encoding.md R65, R69: what is left out takes its default: 0x0000, and 10, 32, 36 or 21. -/
def Obligations.ReadDefaultsFillIn : Prop :=
  ∀ (s : State) (a : Word16),
    exec (.readStatus .defaults) s = exec (.readStatus (.both 0x0000 10)) s ∧
    exec (.readAlarms .defaults) s = exec (.readAlarms (.both 0x0000 32)) s ∧
    exec (.readSensors .defaults) s = exec (.readSensors (.both 0x0000 36)) s ∧
    exec (.readConfiguration .defaults) s = exec (.readConfiguration (.both 0x0000 21)) s ∧
    exec (.readStatus (.start a)) s = exec (.readStatus (.both a 10)) s ∧
    exec (.readAlarms (.start a)) s = exec (.readAlarms (.both a 32)) s ∧
    exec (.readSensors (.start a)) s = exec (.readSensors (.both a 36)) s ∧
    exec (.readConfiguration (.start a)) s = exec (.readConfiguration (.both a 21)) s

/-- 42_read_ops.md R127: the six transforms as exact fractions, and DOC00's examples. -/
def Obligations.TransformsAreExactFractions : Prop :=
  (∀ raw : Word16,
    applyTransform .s10 raw = { tag := .s10, num := if raw.toNat ≤ 32767 then (raw.toNat : Int) else raw.toNat - 65536, den := 10 } ∧
    applyTransform .u100 raw = { tag := .u100, num := raw.toNat, den := 100 } ∧
    applyTransform .u10 raw = { tag := .u10, num := raw.toNat, den := 10 } ∧
    applyTransform .u65280 raw = { tag := .u65280, num := raw.toNat, den := 65280 } ∧
    applyTransform .ident raw = { tag := .ident, num := raw.toNat, den := 1 } ∧
    (4 ≤ raw.toNat → applyTransform .baud raw = { tag := .baud, num := raw.toNat, den := 1 })) ∧
  applyTransform .baud 0 = { tag := .baud, num := 4800, den := 1 } ∧ applyTransform .baud 1 = { tag := .baud, num := 9600, den := 1 } ∧
  applyTransform .baud 2 = { tag := .baud, num := 19200, den := 1 } ∧ applyTransform .baud 3 = { tag := .baud, num := 38400, den := 1 } ∧
  applyTransform (transformAt .sensor 0x0000) 0xFFF6 = { tag := .s10, num := -10, den := 10 } ∧
  applyTransform (transformAt .sensor 0x0002) 2500 = { tag := .u100, num := 2500, den := 100 } ∧
  applyTransform (transformAt .configuration 0x000E) 2 = { tag := .baud, num := 19200, den := 1 } ∧
  applyTransform (transformAt .configuration 0x000E) 5 = { tag := .baud, num := 5, den := 1 }

/-- 42_read_ops.md R128: SENSOR_SCALE at every address, and the window of the default operands. -/
def Obligations.SensorScaleAtEveryAddress : Prop :=
  (∀ a : Nat, transformAt .sensor a =
    if a = 0x00 ∨ a = 0x01 ∨ a = 0x06 then .s10
    else if a = 0x02 ∨ a = 0x03 ∨ a = 0x04 then .u100
    else if a = 0x05 then .u10
    else if a = 0x23 then .u65280
    else .ident) ∧
  (readStart .defaults).toNat = 0x0000 ∧ (readQuantity sensorsQuantity .defaults).toNat = 36

/-- 42_read_ops.md R129: CONFIG_SCALE at every address, and the window of the default operands. -/
def Obligations.ConfigScaleAtEveryAddress : Prop :=
  (∀ a : Nat, transformAt .configuration a =
    if a ≤ 0x05 then .s10
    else if a ≤ 0x08 then .u10
    else if a = 0x0E then .baud
    else if a = 0x12 ∨ a = 0x13 then .u10
    else .ident) ∧
  (readStart .defaults).toNat = 0x0000 ∧ (readQuantity configurationQuantity .defaults).toNat = 21

/-! ### The write operations -/

/-- 43_write_ops.md R150, R152, R153; 30_encoding.md R55, R56, R60: a single write sends its eight bytes and, on a validated response, succeeds exactly when the response is
those eight bytes; otherwise WriteVerificationFailed.
The payload layout of 0x06 is the spec's own decision D15 (log 18, unsafe). -/
def Obligations.SingleWritesNeedTheWholeEcho : Prop :=
  ∀ (s : State) (i : Instr) (fn : Byte) (address word : Word16) (received : List Byte),
    ((∃ v, i = .writeSingleCoil address v ∧ fn = 0x05 ∧ word = if v then 0xFF00 else 0x0000) ∨
      (i = .writeSingleRegister address word ∧ fn = 0x06)) →
    s.exchange = none → (∀ cap, s.txCap = some cap → 8 ≤ cap) → LinkAnswers s received → validate received = none →
      ∃ t request, exec i s = .next t ∧ OverRoundTrip s t request received ∧
        (∃ crcLow crcHigh, request = [s.unitId, fn, hi8 address, lo8 address, hi8 word, lo8 word, crcLow, crcHigh] ∧
          crcHigh ++ crcLow = crc16 [s.unitId, fn, hi8 address, lo8 address, hi8 word, lo8 word]) ∧
        (received = request → t.result = some (.ok .done)) ∧
        (received ≠ request → t.result = some (.failed .writeVerificationFailed))

/-- 30_encoding.md R64: the coil word of a boolean, in the request frame on the wire. -/
def Obligations.CoilWordIsFF00OrZero : Prop :=
  coilWord true = 0xFF00 ∧ coilWord false = 0x0000 ∧
  ∀ (unit : Byte) (address : Word16) (v : Bool), ∃ crcLow crcHigh,
    encode (.reqWriteCoil05 unit address v) =
      .req [unit, 0x05, hi8 address, lo8 address, if v then 0xFF else 0x00, 0x00, crcLow, crcHigh]

/-- 43_write_ops.md R154, R155: the multiple write succeeds on a validated response exactly when its first six bytes are unit id, 0x10, start and count; nothing after is compared.
That a response shorter than six bytes fails is by R155's words "this spec's reading", decision D17, and the count and its limit of 127 are
D16 (both adopted in log 18; D16 is unsafe there). -/
def Obligations.MultipleWriteComparesSixBytes : Prop :=
  ∀ (s : State) (start : Word16) (values : List Word16) (received : List Byte), values.length ≤ 127 →
    s.exchange = none → fitsTx s (multiplePayload start values) = true → LinkAnswers s received → validate received = none →
      ∃ t, exec (.writeMultipleRegisters start values) s = .next t ∧
        OverRoundTrip s t (requestFrame s.unitId 0x10 (multiplePayload start values)) received ∧
        (received.take 6 = [s.unitId, 0x10, hi8 start, lo8 start, 0x00, BitVec.ofNat 8 values.length] →
          t.result = some (.ok .done)) ∧
        (received.take 6 ≠ [s.unitId, 0x10, hi8 start, lo8 start, 0x00, BitVec.ofNat 8 values.length] →
          t.result = some (.failed .writeVerificationFailed))

/-- 30_encoding.md R57: where every field of a multiple-write request lies: 9 + 2c bytes, byteCount 2c, value `j` at offsets 7 + 2j and 8 + 2j.
That byteCount is 2c and that c is at most 127 is what "this spec sets", the spec's own decision D16 (log 18, unsafe). -/
def Obligations.MultipleWriteRequestLayout : Prop :=
  ∀ (unit : Byte) (start : Word16) (values : List Word16), values.length ≤ 127 →
    ∃ frame, encode (.reqWriteMulti10 unit start values) = .req frame ∧ frame.length = 9 + 2 * values.length ∧
      frame[0]? = some unit ∧ frame[1]? = some 0x10 ∧ frame[2]? = some (hi8 start) ∧ frame[3]? = some (lo8 start) ∧
      frame[4]? = some 0x00 ∧ frame[5]? = some (BitVec.ofNat 8 values.length) ∧
      (∃ n, frame[6]? = some n ∧ n.toNat = 2 * values.length) ∧
      (∀ j v, values[j]? = some v → frame[7 + 2 * j]? = some (hi8 v) ∧ frame[8 + 2 * j]? = some (lo8 v)) ∧
      trailerRight frame = true

/-- 43_write_ops.md R156, 60_exceptions.md R201: more than 127 values are refused with OperandRefused before any frame is built or sent.
The limit is the spec's own decision D16 (log 18, unsafe). -/
def Obligations.MoreThan127ValuesAreRefused : Prop :=
  ∀ (s : State) (start : Word16) (values : List Word16), s.exchange = none → 128 ≤ values.length →
    ∃ t, exec (.writeMultipleRegisters start values) s = .next t ∧ OverOffLink s t ∧
      t.result = some (.failed .operandRefused)

/-- 43_write_ops.md R158: a write succeeds only if the response carries UNIT_ID and the function code that was sent. -/
def Obligations.WriteSuccessMeansUnitAndFunctionMatched : Prop :=
  ∀ (s t : State) (i : Instr) (fn : Byte) (payload received : List Byte),
    ((∃ a v, i = .writeSingleCoil a v) ∨ (∃ a v, i = .writeSingleRegister a v) ∨ (∃ a vs, i = .writeMultipleRegisters a vs)) →
    s.exchange = none → typedRequest i = some (fn, payload) → LinkAnswers s received →
    exec i s = .next t → t.result = some (.ok .done) →
      received[0]? = some s.unitId ∧ received[1]? = some fn

/-! ### The wire rows -/

/-- 30_encoding.md R54 to R57, R70; 44_transaction.md R170 steps 1 to 3 (that a request row is the sending half of an exchange is the model's choice, log 9; the table of REQ_READ_03 is free, log 11;
that the row's unit byte goes out as it stands, even where it differs from UNIT_ID, is the model's choice, log 25, unsafe): a request row whose
link answers let it through puts its frame on the wire and into TXBUF and waits. -/
def Obligations.RequestRowsPutTheirFrameInFlight : Prop :=
  ∀ (s : State) (i : Instr) (frame : List Byte), encode i = .req frame → i.wellFormed = true → s.exchange = none →
    (∀ cap, s.txCap = some cap → frame.length ≤ cap) → openAnswer s = .ok → writeAnswer s = .ok →
      ∃ t purpose, exec i s = .next t ∧ ConfigKept s t ∧ t.presented = s.presented ∧ t.conn = .opened ∧ t.result = none ∧
        t.crcGen = none ∧ t.rxbuf = s.rxbuf ∧ t.txbuf = some frame ∧ t.txlen = some frame.length ∧
        t.link = linkAfter s.link 1 1 0 [.opened, .wrote frame] ∧ t.exchange = some purpose ∧
        (∀ u a q, i = .reqRead01 u a q → purpose = .bits a q) ∧
        (∀ u a q, i = .reqRead02 u a q → purpose = .bits a q) ∧
        (∀ u a q, i = .reqRead03 u a q → ∃ table, purpose = .words table a q) ∧
        (∀ u a v, i = .reqWriteCoil05 u a v → purpose = .echo) ∧
        (∀ u a v, i = .reqWriteReg06 u a v → purpose = .echo) ∧
        (∀ u a vs, i = .reqWriteMulti10 u a vs → purpose = .echoPrefix)

/-- 44_transaction.md R172, R175; 43_write_ops.md R157 (log 9, log 14): a request row fails as its operation does: refused under a small TX_CAP, ConnectionFailed, or an I/O error of the write after which the connection is closed. -/
def Obligations.RequestRowsFailLikeTheirOperations : Prop :=
  ∀ (s : State) (i : Instr) (frame : List Byte), encode i = .req frame → i.wellFormed = true → s.exchange = none →
    (∀ cap, s.txCap = some cap → cap < frame.length →
      ∃ t, exec i s = .next t ∧ OverOffLink s t ∧ t.result = some (.failed .operandRefused)) ∧
    ((∀ cap, s.txCap = some cap → frame.length ≤ cap) →
      (∀ e, openAnswer s = .fail e →
        ∃ t, exec i s = .next t ∧ Over s t ∧ t.conn = s.conn ∧ t.link = linkAfter s.link 1 0 0 [.openFailed e] ∧
          t.result = some (.failed (.connectionFailed e))) ∧
      (∀ e, openAnswer s = .ok → writeAnswer s = .ioError e →
        ∃ t, exec i s = .next t ∧ Over s t ∧ t.conn = .closed ∧
          t.link = linkAfter s.link 1 1 0 [.opened, .writeFailed e, .closed] ∧
          t.result = some (.failed (ioFailure s e))))

/-- 30_encoding.md R58 to R62, 44_transaction.md R170 steps 4 to 7 (that a response row is the receiving half of an exchange is the model's choice, log 10): with a request in flight, a response row puts its
frame's bytes through the validator and then through the reading of the operation that sent the request, and the exchange is over. -/
def Obligations.ResponseRowsAnswerTheRequestInFlight : Prop :=
  ∀ (s : State) (i : Instr) (frame : List Byte) (purpose : Purpose), encode i = .rsp frame → i.wellFormed = true →
    s.exchange = some purpose →
      ∃ t, exec i s = .next t ∧ Over s t ∧ t.conn = .closed ∧
        t.link = linkAfter s.link 0 0 0 [.read frame, .closed] ∧
        (∀ f, validate frame = some f → t.result = some (.failed f)) ∧
        (validate frame = none → t.result = some (interpret purpose s.txbuf frame))

/-- 60_exceptions.md R200 (log 10): a response that arrives with no request in flight changes nothing. -/
def Obligations.UnsolicitedResponsesHaveNoEffect : Prop :=
  ∀ (s : State) (i : Instr) (frame : List Byte), encode i = .rsp frame → s.exchange = none → exec i s = .next s

/-- 20_memory.md R45, 70_reset_and_hazards.md R224, 93_implementation_defined.md U4: with a request in flight no operation of the host and no request row has a step. -/
def Obligations.NoSecondOperationWhileOneIsInProgress : Prop :=
  ∀ (s : State) (i : Instr), s.exchange ≠ none → (encode i).space ≠ .rsp → exec i s = .fault .operationInProgress

/-- 44_transaction.md R170; 42_read_ops.md R120; 43_write_ops.md R150 to R154 (log 9, log 10): an operation in one step and the same exchange in two, its request row and then the received bytes, give the
same result and the same events at the link; for a 0x03 request the result is that of one of the two word reads (log 11). -/
def Obligations.TwoStepExchangeMatchesTheOperation : Prop :=
  ∀ (s : State) (received : List Byte), s.exchange = none → s.txCap = none → LinkAnswers s received →
    (∀ (i row : Instr),
      ((∃ r, i = .readStatus r ∧ row = .reqRead01 s.unitId (readStart r) (readQuantity 10 r)) ∨
        (∃ r, i = .readAlarms r ∧ row = .reqRead02 s.unitId (readStart r) (readQuantity 32 r)) ∨
        (∃ a v, i = .writeSingleCoil a v ∧ row = .reqWriteCoil05 s.unitId a v) ∨
        (∃ a v, i = .writeSingleRegister a v ∧ row = .reqWriteReg06 s.unitId a v) ∨
        (∃ a vs, i = .writeMultipleRegisters a vs ∧ row = .reqWriteMulti10 s.unitId a vs ∧ vs.length ≤ 127)) →
      ∃ t u v, exec i s = .next t ∧ exec row s = .next u ∧ runPresented (.rsp received) u = .next v ∧
        v.result = t.result ∧ v.conn = t.conn ∧ v.link.log = t.link.log ∧ Over t v) ∧
    (∀ (a q : Word16), ∃ t t' u v, exec (.readSensors (.both a q)) s = .next t ∧
      exec (.readConfiguration (.both a q)) s = .next t' ∧ exec (.reqRead03 s.unitId a q) s = .next u ∧
      runPresented (.rsp received) u = .next v ∧ (v.result = t.result ∨ v.result = t'.result) ∧
      v.link.log = t.link.log ∧ v.link.log = t'.link.log)

/-! ### Presenting, decoding, stepping -/

/-- 00_scope.md R8: a step takes the next presented item and, when it decodes to an instruction, is that instruction's meaning at the state with the item taken off. -/
def Obligations.StepRunsTheDecodedInstruction : Prop :=
  ∀ (s : State) (p : Presented) (rest : List Presented) (i : Instr), s.presented = p :: rest → decode p = .instr i →
    step s = exec i { s with presented := rest }

/-- 60_exceptions.md R200, R203: with nothing presented the block is idle. -/
def Obligations.IdleStepChangesNothing : Prop :=
  ∀ s : State, s.presented = [] → step s = .next s

/-- 30_encoding.md R67, 60_exceptions.md R198: OP 0xB to 0xF deliver IllegalOperation, whatever stands at the operand ports, and nothing is sent.
The selector, the outcome and its number are the spec's own decisions D2, D24 and D5 (log 18). -/
def Obligations.UnusedSelectorsDeliverIllegalOperation : Prop :=
  ∀ (s : State) (op : BitVec 4) (operands : List Byte) (rest : List Presented), 0xB ≤ op.toNat →
    s.presented = .cmd op operands :: rest → s.exchange = none →
      ∃ t, step s = .next t ∧ OverOffLink { s with presented := rest } t ∧ t.result = some (.failed .illegalOperation) ∧
        t.status = some 10

/-- 30_encoding.md R51, R66; 44_transaction.md R171, R173: any received byte sequence, row or no row, of any length, answers the request in flight: its first 256 bytes go through the validator and the operation's reading. -/
def Obligations.AnyReceivedBytesReachTheValidator : Prop :=
  ∀ (s : State) (frame : List Byte) (rest : List Presented) (purpose : Purpose), s.presented = .rsp frame :: rest →
    s.exchange = some purpose →
      ∃ t, step s = .next t ∧ Over { s with presented := rest } t ∧ t.conn = .closed ∧
        t.link = linkAfter s.link 0 0 0 [.read (frame.take 256), .closed] ∧
        (∀ f, validate (frame.take 256) = some f → t.result = some (.failed f)) ∧
        (validate (frame.take 256) = none → t.result = some (interpret purpose s.txbuf (frame.take 256)))

/-- 92_eei_decisions.md D6, 30_encoding.md R53 (log 1, log 16): operand bytes that fit no port form, and request frames that are no row, are refused by name. -/
def Obligations.UnpresentableItemsAreRefused : Prop :=
  ∀ (s : State) (p : Presented) (rest : List Presented), s.presented = p :: rest →
    (∀ op, decode p = .rejected (.operandsDoNotFit op) → step s = .refused .operandsDoNotFit) ∧
    (decode p = .rejected .noRequestRow → step s = .refused .noRequestRow)

/-- 30_encoding.md R50 to R62, R67, R70: decoding the encoding of a well-formed instruction gives it back, every operand at every value.
The operand layout of the operations is the model's choice (log 1). -/
def Obligations.DecodeOfEncodeIsTheInstruction : Prop :=
  ∀ i : Instr, i.wellFormed = true → decode (encode i) = .instr i

/-- 30_encoding.md R50 to R62, R67, R70: whatever decodes is well-formed and is the encoding of what it decodes to: each item has one meaning.
The operand layout of the operations is the model's choice (log 1). -/
def Obligations.EncodeOfDecodeIsTheItem : Prop :=
  ∀ (p : Presented) (i : Instr), decode p = .instr i → i.wellFormed = true ∧ encode i = p

/-- 30_encoding.md R70: within a decode space no item lies in the row of another instruction. -/
def Obligations.RowsOfOneSpaceDoNotOverlap : Prop :=
  ∀ i j : Instr, j.row.accepts (encode i) = true → i.row = j.row

/-- 30_encoding.md R54 to R62, R67; 95_test_vectors.md V13, V24, V34, V41, V50, V70, V75, V77: three operations, and six frames written out from the spec, decode to the instruction they stand for.
The frames are the spec's; the operand bytes of the three operations are laid out as the model chose (log 1: DESIGN CHOICE, unsafe for a claim about a
particular operand byte string), R67 giving only their order and widths. -/
def Obligations.WrittenOutWordsDecode : Prop :=
  decode (.cmd 0x8 [0x00, 0x03, 0x01]) = .instr (.writeSingleCoil 0x0003 true) ∧
  decode (.cmd 0x6 [0x00, 0x00, 0x00, 0x03]) = .instr (.readSensors (.both 0x0000 3)) ∧
  decode (.cmd 0x1 [0x01, 0x03, 0x00, 0x00, 0x00, 0x0A]) = .instr (.buildRequest 0x01 0x03 [0x00, 0x00, 0x00, 0x0A]) ∧
  decode (.req [0x01, 0x03, 0x00, 0x00, 0x00, 0x0A, 0xC5, 0xCD]) = .instr (.reqRead03 0x01 0x0000 10) ∧
  decode (.req [0x01, 0x05, 0x00, 0x03, 0xFF, 0x00, 0x7C, 0x3A]) = .instr (.reqWriteCoil05 0x01 0x0003 true) ∧
  decode (.req [0x01, 0x10, 0x00, 0x06, 0x00, 0x02, 0x04, 0x00, 0xC8, 0x01, 0x2C, 0xF2, 0x36]) =
    .instr (.reqWriteMulti10 0x01 0x0006 [0x00C8, 0x012C]) ∧
  decode (.rsp [0x01, 0x01, 0x02, 0x05, 0x02, 0x3B, 0x6D]) = .instr (.rspBits01 0x01 [0x05, 0x02] 0x6D3B) ∧
  decode (.rsp [0x01, 0x03, 0x04, 0xFF, 0xF6, 0x00, 0xFA, 0xAA, 0x56]) = .instr (.rspWords03 0x01 [0xFFF6, 0x00FA] 0x56AA) ∧
  decode (.rsp [0x01, 0x83, 0x02, 0xC0, 0xF1]) = .instr (.rspException 0x01 0x03 [0x02] 0xF1C0)

/-! ### The whole machine -/

/-- 10_state.md R23, 70_reset_and_hazards.md R220: what construction leaves, with UNIT_ID 1 when none is given, and no instance without HOST or PORT (U12). -/
def Obligations.ConstructionLeavesTheResetValues : Prop :=
  (∀ (unitId : Option Byte) (host : String) (port : Int), ∃ s, Client.construct unitId (some host) (some port) = .live s ∧
    s.unitId = unitId.getD 1 ∧ s.host = host ∧ s.port = port ∧ s.timeoutSeconds = 5 ∧ s.crcGen = none ∧ s.txbuf = none ∧
    s.txlen = none ∧ s.rxbuf = none ∧ s.rxlen = none ∧ s.result = none ∧ s.status = none ∧ s.conn = .closed) ∧
  (∀ (unitId : Option Byte) (port : Option Int), Client.construct unitId none port = .absent) ∧
  (∀ (unitId : Option Byte) (host : Option String), Client.construct unitId host none = .absent) ∧
  State.reset.unitId = 1

/-- 70_reset_and_hazards.md R222: after destruction nothing can be presented and nothing runs.
That an instance may be destroyed while a request row's exchange is in flight, and is then dropped as it stands, is the model's choice (log 30). -/
def Obligations.DestroyedClientsTakeNothing : Prop :=
  ∀ (c : Client) (p : Presented), c.destroy.present p = none ∧ c.destroy.step = none

/-- 10_state.md R24; 41_frame_codec.md R110; 42_read_ops.md R133: the invariant and the link order hold at reset. -/
def Obligations.ResetMeetsTheInvariants : Prop := Inv State.reset ∧ LinkOrder State.reset

/-- 10_state.md R15, R24; 41_frame_codec.md R110; 42_read_ops.md R133; 44_transaction.md R172: every step keeps the invariant: connection open exactly while a request is out, working registers dead between operations, delivered
frames good, delivered addresses strictly ascending. -/
def Obligations.EveryStepKeepsTheInvariant : Prop :=
  ∀ s t : State, Inv s → step s = .next t → Inv t

/-- 20_memory.md R42, R44; 44_transaction.md R170, R172, R173: every step keeps the order open, one write, one read of at most 256 bytes, close. -/
def Obligations.EveryStepKeepsTheLinkOrder : Prop :=
  ∀ s t : State, LinkOrder s → step s = .next t → LinkOrder t

/-- 10_state.md R11, R12: no step writes UNIT_ID, HOST, PORT, TIMEOUT or a parameter of the model. -/
def Obligations.NoStepWritesTheConfiguration : Prop :=
  ∀ s t : State, step s = .next t → ConfigKept s t

/-- 43_write_ops.md R159, 44_transaction.md R173, R176, R177: a step only adds to the record of the link, with at most one write and at most one read. -/
def Obligations.EveryStepWritesAndReadsAtMostOnce : Prop :=
  ∀ s t : State, step s = .next t → ∃ events, t.link.log = s.link.log ++ events ∧
    events.countP LinkEvent.isWrite ≤ 1 ∧ events.countP LinkEvent.isRead ≤ 1

/-- 44_transaction.md R179, 60_exceptions.md R193, R194, R199: with no exchange in flight every operation of the host completes with a result, success or one failure, and leaves nothing but the configuration behind. -/
def Obligations.EveryOperationOwesAResult : Prop :=
  ∀ (s : State) (i : Instr), (encode i).space = .cmd → s.exchange = none →
    ∃ t r, exec i s = .next t ∧ Over s t ∧ t.result = some r

/-- 70_reset_and_hazards.md R221; 10_state.md R24; 60_exceptions.md R194: the result and the link events of an operation depend on UNIT_ID, the two parameters, the operands and the link agent's answers alone, never on
what an earlier operation left, on HOST, PORT or TIMEOUT. -/
def Obligations.OperationsForgetThePast : Prop :=
  ∀ (s s' : State) (i : Instr), (encode i).space = .cmd → s.exchange = none → s'.exchange = none →
    s'.unitId = s.unitId → s'.txCap = s.txCap → s'.linkIoError = s.linkIoError →
    openAnswer s' = openAnswer s → writeAnswer s' = writeAnswer s → readAnswer s' = readAnswer s →
      ∃ t t' events, exec i s = .next t ∧ exec i s' = .next t' ∧ t'.result = t.result ∧
        t.link.log = s.link.log ++ events ∧ t'.link.log = s'.link.log ++ events
end

