-- ==== Sys2Proof/Laws/Bytes.lean ====
section
/-! SUPPORT. Laws of the byte helpers: byte order round trips, buffer reads after writes, the trailer split. -/

namespace Sys2Proof.Machine

theorem be16_hi8_lo8 (v : Word16) : be16 (hi8 v) (lo8 v) = v := by
  apply BitVec.eq_of_getLsbD_eq
  intro i hi
  simp only [be16, hi8, lo8, BitVec.getLsbD_append, BitVec.getLsbD_extractLsb']
  by_cases h : i < 8
  · simp [h]
  · have h8 : i - 8 < 8 := by omega
    have : 8 + (i - 8) = i := by omega
    simp [h, h8, this]

theorem trailerWord_lo8_hi8 (v : Word16) : trailerWord (lo8 v) (hi8 v) = v := be16_hi8_lo8 v

theorem hi8_be16 (h l : Byte) : hi8 (be16 h l) = h := by
  apply BitVec.eq_of_getLsbD_eq
  intro i hi
  rw [hi8, be16, BitVec.getLsbD_extractLsb', BitVec.getLsbD_append, if_neg (by omega)]
  simp [hi]

theorem lo8_be16 (h l : Byte) : lo8 (be16 h l) = l := by
  apply BitVec.eq_of_getLsbD_eq
  intro i hi
  rw [lo8, be16, BitVec.getLsbD_extractLsb', BitVec.getLsbD_append, if_pos (by omega)]
  simp [hi]

theorem trailerBytes_trailerWord (low high : Byte) : trailerBytes (trailerWord low high) = [low, high] := by
  have h1 := hi8_be16 high low
  have h2 := lo8_be16 high low
  simp only [be16] at h1 h2
  simp only [trailerBytes, trailerWord, h1, h2]

theorem be16Bytes_be16 (h l : Byte) : be16Bytes (be16 h l) = [h, l] := by
  rw [be16Bytes, hi8_be16, lo8_be16]

theorem bytesOfWords_length (vs : List Word16) : (bytesOfWords vs).length = 2 * vs.length := by
  induction vs with
  | nil => rfl
  | cons v vs ih => simp [bytesOfWords, ih]; omega

theorem wordsOfBytes_bytesOfWords (vs : List Word16) : wordsOfBytes (bytesOfWords vs) = some vs := by
  induction vs with
  | nil => rfl
  | cons v vs ih => simp [bytesOfWords, wordsOfBytes, ih, be16_hi8_lo8]

theorem bytesOfWords_wordsOfBytes {bs : List Byte} {vs : List Word16} (h : wordsOfBytes bs = some vs) : bs = bytesOfWords vs := by
  induction bs using wordsOfBytes.induct generalizing vs with
  | case1 => simp [wordsOfBytes] at h; subst h; rfl
  | case2 b => simp [wordsOfBytes] at h
  | case3 a b rest ih =>
    simp only [wordsOfBytes, Option.map_eq_some_iff] at h
    obtain ⟨ws, hws, rfl⟩ := h
    simp [bytesOfWords, hi8_be16, lo8_be16, ← ih hws]

theorem splitTrailer_append (body : List Byte) (low high : Byte) :
    splitTrailer (body ++ [low, high]) = some (body, trailerWord low high) := by
  induction body with
  | nil => rfl
  | cons b bs ih =>
    cases bs with
    | nil => simp [splitTrailer]
    | cons c cs =>
      cases cs with
      | nil => simp [splitTrailer]
      | cons d ds => simpa [splitTrailer] using ih

/-- The split is exactly the frame format: a body and its trailer. -/
theorem splitTrailer_eq_some_iff {frame body : List Byte} {crc : Word16} :
    splitTrailer frame = some (body, crc) ↔ frame = body ++ trailerBytes crc := by
  constructor
  · intro h
    induction frame using splitTrailer.induct generalizing body with
    | case1 => simp [splitTrailer] at h
    | case2 b => simp [splitTrailer] at h
    | case3 low high =>
      simp only [splitTrailer, Option.some.injEq, Prod.mk.injEq] at h
      obtain ⟨rfl, rfl⟩ := h
      simp [trailerBytes_trailerWord]
    | case4 b b' b'' rest ih =>
      simp only [splitTrailer, Option.map_eq_some_iff] at h
      obtain ⟨⟨body', crc'⟩, hp, he⟩ := h
      simp only [Prod.mk.injEq] at he
      obtain ⟨rfl, rfl⟩ := he
      simpa using ih hp
  · rintro rfl
    simp [trailerBytes, splitTrailer_append, trailerWord_lo8_hi8]

theorem splitTrailer_length {frame body : List Byte} {crc : Word16} (h : splitTrailer frame = some (body, crc)) :
    frame.length = body.length + 2 := by
  rw [splitTrailer_eq_some_iff] at h
  simp [h, trailerBytes]

theorem splitTrailer_isSome {frame : List Byte} (h : 2 ≤ frame.length) : ∃ body crc, splitTrailer frame = some (body, crc) := by
  have h1 : frame = frame.take (frame.length - 2) ++ frame.drop (frame.length - 2) := (List.take_append_drop _ _).symm
  have h2 : (frame.drop (frame.length - 2)).length = 2 := by simp; omega
  match hd : frame.drop (frame.length - 2), h2 with
  | [low, high], _ =>
    rw [hd] at h1
    exact ⟨_, _, by rw [h1]; exact splitTrailer_append _ low high⟩

/-! ### MemRead and MemWrite -/

/-- A write at the end of a buffer appends. -/
theorem memWrite_end (buf s : List Byte) (k : Nat) (hk : k = buf.length) : memWrite buf k s = buf ++ s := by
  subst hk
  simp [memWrite, List.drop_of_length_le]

theorem memWrite_length (buf s : List Byte) (k : Nat) (hk : k ≤ buf.length) :
    (memWrite buf k s).length = max buf.length (k + s.length) := by
  simp [memWrite]; omega

theorem memRead_memWrite_same (buf s : List Byte) (k : Nat) (hk : k ≤ buf.length) :
    memRead (memWrite buf k s) k s.length = some s := by
  have hl : (buf.take k).length = k := by simp [hk]
  unfold memRead
  rw [if_pos (by rw [memWrite_length buf s k hk]; omega), memWrite, List.append_assoc,
    List.drop_append_of_le_length (by omega), List.drop_of_length_le (by omega)]
  simp

theorem memWrite_getElem?_before (buf s : List Byte) (k i : Nat) (hi : i < k) (hk : k ≤ buf.length) :
    (memWrite buf k s)[i]? = buf[i]? := by
  have : i < (List.take k buf).length := by simp; omega
  rw [memWrite, List.append_assoc, List.getElem?_append_left this, List.getElem?_take_of_lt hi]

theorem memWrite_getElem?_after (buf s : List Byte) (k i : Nat) (hi : k + s.length ≤ i) (hk : k ≤ buf.length) :
    (memWrite buf k s)[i]? = buf[i]? := by
  rw [memWrite, List.getElem?_append_right (by simp; omega), List.getElem?_drop]
  congr 1
  simp; omega

end Sys2Proof.Machine
end

