-- ==== Sys2Proof/Laws/Crc.lean ====
section
/-! SUPPORT. Laws of the CRC generator: the registers compute the fold, and the fold is a fold. -/

namespace Sys2Proof.Machine

theorem crcFrom_nil (c : Word16) : crcFrom c [] = c := rfl

theorem crcFrom_cons (c : Word16) (b : Byte) (bs : List Byte) : crcFrom c (b :: bs) = crcFrom (crcByteStep c b) bs := rfl

theorem crcFrom_append (c : Word16) (xs ys : List Byte) : crcFrom c (xs ++ ys) = crcFrom (crcFrom c xs) ys :=
  List.foldl_append

theorem crc16_append (xs ys : List Byte) : crc16 (xs ++ ys) = crcFrom (crc16 xs) ys := crcFrom_append _ _ _

/-- The bits of one bit step (40_crc.md R83): a shift, and the constant where the old bit 0 was 1. -/
theorem crcBitStep_getLsbD (c : Word16) (i : Nat) :
    (crcBitStep c).getLsbD i = (c.getLsbD (i + 1) ^^ (c.getLsbD 0 && crcPoly.getLsbD i)) := by
  unfold crcBitStep
  split <;> rename_i h
  · simp only [BitVec.getLsbD_xor, BitVec.getLsbD_ushiftRight, Nat.add_comm 1 i, h, Bool.true_and]
  · simp only [BitVec.getLsbD_ushiftRight, Nat.add_comm 1 i, h, Bool.false_and, Bool.xor_false]

/-- The bit step is linear over XOR (40_crc.md R87). -/
theorem crcBitStep_xor (c d : Word16) : crcBitStep (c ^^^ d) = crcBitStep c ^^^ crcBitStep d := by
  apply BitVec.eq_of_getLsbD_eq
  intro i _
  simp only [BitVec.getLsbD_xor, crcBitStep_getLsbD]
  generalize c.getLsbD (i + 1) = a, d.getLsbD (i + 1) = b, c.getLsbD 0 = x, d.getLsbD 0 = y, crcPoly.getLsbD i = z
  revert a b x y z; decide

theorem crcBitSteps_xor (n : Nat) (c d : Word16) : crcBitSteps n (c ^^^ d) = crcBitSteps n c ^^^ crcBitSteps n d := by
  induction n generalizing c d with
  | zero => rfl
  | succ n ih => simp only [crcBitSteps, crcBitStep_xor, ih]

theorem CrcGen.bits_eq (n : Nat) (g : CrcGen) :
    CrcGen.bits n g = { crc := crcBitSteps n g.crc, byteIdx := g.byteIdx, bitCnt := g.bitCnt + n } := by
  induction n generalizing g with
  | zero => rfl
  | succ n ih => rw [CrcGen.bits, ih]; simp only [CrcGen.bit, crcBitSteps, CrcGen.mk.injEq, true_and]; omega

theorem CrcGen.byte_eq (g : CrcGen) (b : Byte) :
    g.byte b = { crc := crcByteStep g.crc b, byteIdx := g.byteIdx + 1, bitCnt := 8 } := by
  simp [CrcGen.byte, CrcGen.bits_eq, crcByteStep]

theorem CrcGen.foldl_crc (g : CrcGen) (bytes : List Byte) : (bytes.foldl CrcGen.byte g).crc = crcFrom g.crc bytes := by
  induction bytes generalizing g with
  | nil => rfl
  | cons b bs ih => rw [List.foldl_cons, ih, crcFrom_cons, CrcGen.byte_eq]

theorem CrcGen.foldl_byteIdx (g : CrcGen) (bytes : List Byte) :
    (bytes.foldl CrcGen.byte g).byteIdx = g.byteIdx + bytes.length := by
  induction bytes generalizing g with
  | nil => rfl
  | cons b bs ih => rw [List.foldl_cons, ih, CrcGen.byte_eq]; simp only [List.length_cons]; omega

/-- CRC at the end of a computation on the registers is `crc16` of the bytes (10_state.md R13, 40_crc.md R84). -/
theorem CrcGen.run_crc (bytes : List Byte) : (CrcGen.run bytes).crc = crc16 bytes := CrcGen.foldl_crc _ _

/-- BYTEIDX at the end counts the bytes absorbed: the model's choice (log 27), since 10_state.md R14 is silent on the end. -/
theorem CrcGen.run_byteIdx (bytes : List Byte) : (CrcGen.run bytes).byteIdx = bytes.length := by
  simp [CrcGen.run, CrcGen.foldl_byteIdx, CrcGen.start]

end Sys2Proof.Machine
end

