-- ==== Sys2Proof/Laws/Frame.lean ====
section
/-! SUPPORT. Laws of frames: what BUILD_REQUEST's writes leave, and what the trailer test means. -/

namespace Sys2Proof.Machine

/-- The four MemWrites of R100 leave the body and its CRC, low byte first. -/
theorem requestFrame_eq (unit fn : Byte) (payload : List Byte) :
    requestFrame unit fn payload = requestBody unit fn payload ++ trailerBytes (crc16 (requestBody unit fn payload)) := by
  simp only [requestFrame]
  rw [memWrite_end [] _ 0 rfl, List.nil_append, memWrite_end (requestBody unit fn payload) _ _ (by simp [requestBody])]
  rw [memWrite_end _ _ _ (by simp [requestBody])]
  simp [trailerBytes]

theorem requestFrame_length (unit fn : Byte) (payload : List Byte) : (requestFrame unit fn payload).length = payload.length + 4 := by
  simp [requestFrame_eq, requestBody, trailerBytes]

theorem withTrailer_splitTrailer (body : List Byte) (crc : Word16) : splitTrailer (withTrailer body crc) = some (body, crc) :=
  splitTrailer_eq_some_iff.2 rfl

/-- A trailer is right exactly when the bytes are a body and its CRC (30_encoding.md R50). -/
theorem trailerRight_iff (frame : List Byte) : trailerRight frame = true ↔ ∃ body, frame = withTrailer body (crc16 body) := by
  unfold trailerRight
  constructor
  · intro h
    split at h
    · rename_i body t hs
      rw [beq_iff_eq] at h
      exact ⟨body, by rw [h]; exact splitTrailer_eq_some_iff.1 hs⟩
    · cases h
  · rintro ⟨body, rfl⟩
    simp [withTrailer_splitTrailer]

theorem trailerRight_withTrailer (body : List Byte) (crc : Word16) :
    trailerRight (withTrailer body crc) = (crc16 body == crc) := by
  simp [trailerRight, withTrailer_splitTrailer]

theorem trailerRight_requestFrame (unit fn : Byte) (payload : List Byte) : trailerRight (requestFrame unit fn payload) = true :=
  (trailerRight_iff _).2 ⟨_, requestFrame_eq unit fn payload⟩

theorem withTrailer_length (body : List Byte) (crc : Word16) : (withTrailer body crc).length = body.length + 2 := by
  simp [withTrailer, trailerBytes]

/-- A frame of four bytes or more is a unit id, a function code, a payload and a trailer (30_encoding.md R50). -/
theorem frame_shape {frame : List Byte} (h : minFrame ≤ frame.length) :
    ∃ unit fn payload crc, frame = responseFrame unit fn payload crc := by
  have h4 : 4 ≤ frame.length := h
  obtain ⟨body, crc, hs⟩ := splitTrailer_isSome (frame := frame) (by omega)
  have hl := splitTrailer_length hs
  match body, hl with
  | unit :: fn :: payload, _ => exact ⟨unit, fn, payload, crc, splitTrailer_eq_some_iff.1 hs⟩
  | [_], hl => simp at hl; omega
  | [], hl => simp at hl; omega

/-- The checks passed: at least four bytes and a right trailer (41_frame_codec.md R102, R113). -/
theorem validate_eq_none {frame : List Byte} (h : validate frame = none) : minFrame ≤ frame.length ∧ trailerRight frame = true := by
  unfold validate at h
  split at h
  · cases h
  · split at h
    · cases h
    · split at h
      · exact ⟨by omega, by assumption⟩
      · cases h

/-- The trailer as the number of 20_memory.md R33. -/
theorem trailerWord_toNat (low high : Byte) : (trailerWord low high).toNat = low.toNat + 256 * high.toNat := by
  rw [trailerWord, BitVec.toNat_append, ← Nat.shiftLeft_add_eq_or_of_lt low.isLt, Nat.shiftLeft_eq]
  omega

/-- Bit 7 of the function code is its high bit (41_frame_codec.md R106). -/
theorem exceptionBit_eq (fn : Byte) : exceptionBit fn = fn.getLsbD 7 := by
  revert fn; decide

/-- Check 4 on the frame format: the code is the third byte, the first payload byte or the trailer's low byte (41_frame_codec.md R106, R107). -/
theorem exceptionCheck_responseFrame (unit fn : Byte) (payload : List Byte) (crc : Word16) :
    exceptionCheck (responseFrame unit fn payload crc) =
      if fn.getLsbD 7 then some (exceptionFailure (payload.headD (lo8 crc))) else none := by
  rw [← exceptionBit_eq]
  cases payload <;> rfl

/-- The four checks on the frame format: the trailer, then bit 7 (41_frame_codec.md R102). -/
theorem validate_responseFrame (unit fn : Byte) (payload : List Byte) (crc : Word16) :
    validate (responseFrame unit fn payload crc) =
      if crc16 (requestBody unit fn payload) = crc then
        if fn.getLsbD 7 then some (exceptionFailure (payload.headD (lo8 crc))) else none
      else some .crcMismatch := by
  have hl : (responseFrame unit fn payload crc).length = payload.length + 4 := by
    simp [responseFrame, withTrailer_length, requestBody]
  have h4 : ¬ payload.length + 4 < minFrame := by simp [minFrame]
  have h0 : ¬ payload.length + 4 = 0 := by omega
  simp only [validate, hl, h0, h4, if_false]
  rw [responseFrame, trailerRight_withTrailer, ← responseFrame, exceptionCheck_responseFrame]
  by_cases h : crc16 (requestBody unit fn payload) = crc <;> simp [h]

theorem requestFrame_eq_responseFrame (unit fn : Byte) (payload : List Byte) :
    requestFrame unit fn payload = responseFrame unit fn payload (crc16 (requestBody unit fn payload)) :=
  requestFrame_eq unit fn payload

end Sys2Proof.Machine
end

