-- ==== Sys2Proof/Laws/Decode.lean ====
section
/-! SUPPORT. The laws of the decoder's parts: operand forms both ways, and a frame taken apart into unit, function, payload and trailer. -/

namespace Sys2Proof

open Machine

theorem decodeReadOperands_encodeReadOperands (r : ReadOperands) : decodeReadOperands (encodeReadOperands r) = some r := by
  cases r <;> simp [decodeReadOperands, encodeReadOperands, be16Bytes, be16_hi8_lo8]

theorem encodeReadOperands_of_decode {operands : List Byte} {r : ReadOperands} (h : decodeReadOperands operands = some r) :
    encodeReadOperands r = operands := by
  unfold decodeReadOperands at h
  split at h <;> simp only [Option.some.injEq, reduceCtorEq] at h <;> subst h <;> simp [encodeReadOperands, be16Bytes_be16]

/-- The one way a read decodes. -/
theorem decodeRead_eq_instr {op : BitVec 4} {operands : List Byte} {mk : ReadOperands → Instr} {i : Instr}
    (h : decodeRead op operands mk = .instr i) : ∃ r, i = mk r ∧ encodeReadOperands r = operands := by
  unfold decodeRead at h
  split at h
  · rename_i r hr
    injection h with h
    exact ⟨r, h.symm, encodeReadOperands_of_decode hr⟩
  · cases h

/-- A built request is decoded by its function code and payload. -/
theorem decodeRequest_requestFrame (unit fn : Byte) (payload : List Byte) :
    decodeRequest (requestFrame unit fn payload) = decodeRequestBody unit fn payload := by
  rw [requestFrame_eq_responseFrame, decodeRequest, responseFrame, withTrailer_splitTrailer]
  simp [requestBody]

/-- Whatever decodes as a request is a built frame. -/
theorem decodeRequest_eq_instr {frame : List Byte} {i : Instr} (h : decodeRequest frame = .instr i) :
    ∃ unit fn payload, frame = requestFrame unit fn payload ∧ decodeRequestBody unit fn payload = .instr i := by
  unfold decodeRequest at h
  split at h
  · rename_i unit fn payload crc hs
    split at h
    · rename_i hc
      rw [splitTrailer_eq_some_iff] at hs
      exact ⟨unit, fn, payload, by rw [requestFrame_eq, hs, hc]; rfl, h⟩
    · cases h
  · cases h

/-- Received bytes of four to 256 are decoded by function code, payload and trailer. -/
theorem decodeResponse_responseFrame (unit fn : Byte) (payload : List Byte) (crc : Word16) (h : payload.length + 4 ≤ rxMax) :
    decodeResponse (responseFrame unit fn payload crc) = decodeResponseBody unit fn payload crc := by
  have hl : (responseFrame unit fn payload crc).length ≤ rxMax := by
    rw [responseFrame, withTrailer_length]
    simpa [requestBody] using h
  rw [decodeResponse, if_pos hl, responseFrame, withTrailer_splitTrailer]
  rfl

/-- Whatever decodes as a response is such a frame. -/
theorem decodeResponse_eq_instr {frame : List Byte} {i : Instr} (h : decodeResponse frame = .instr i) :
    ∃ unit fn payload crc, payload.length + 4 ≤ rxMax ∧ frame = responseFrame unit fn payload crc ∧
      decodeResponseBody unit fn payload crc = .instr i := by
  unfold decodeResponse at h
  split at h
  · rename_i hl
    split at h
    · rename_i unit fn payload crc hs
      rw [splitTrailer_eq_some_iff] at hs
      refine ⟨unit, fn, payload, crc, ?_, hs, h⟩
      rw [hs] at hl
      simp [trailerBytes] at hl
      omega
    · cases h
  · cases h

end Sys2Proof
end

