-- ==== Sys2Proof/Laws/State.lean ====
section
/-! SUPPORT. One lemma per field per update of the state, each true by unfolding once. -/

namespace Sys2Proof.Machine

variable (s : State)

/-! ### runCrc -/

@[simp] theorem runCrc_unitId (bytes : List Byte) : (runCrc bytes s).unitId = s.unitId := rfl
@[simp] theorem runCrc_host (bytes : List Byte) : (runCrc bytes s).host = s.host := rfl
@[simp] theorem runCrc_port (bytes : List Byte) : (runCrc bytes s).port = s.port := rfl
@[simp] theorem runCrc_timeoutSeconds (bytes : List Byte) : (runCrc bytes s).timeoutSeconds = s.timeoutSeconds := rfl
@[simp] theorem runCrc_txCap (bytes : List Byte) : (runCrc bytes s).txCap = s.txCap := rfl
@[simp] theorem runCrc_linkIoError (bytes : List Byte) : (runCrc bytes s).linkIoError = s.linkIoError := rfl
@[simp] theorem runCrc_crcGen (bytes : List Byte) : (runCrc bytes s).crcGen = some (CrcGen.run bytes) := rfl
@[simp] theorem runCrc_txbuf (bytes : List Byte) : (runCrc bytes s).txbuf = s.txbuf := rfl
@[simp] theorem runCrc_rxbuf (bytes : List Byte) : (runCrc bytes s).rxbuf = s.rxbuf := rfl
@[simp] theorem runCrc_result (bytes : List Byte) : (runCrc bytes s).result = s.result := rfl
@[simp] theorem runCrc_conn (bytes : List Byte) : (runCrc bytes s).conn = s.conn := rfl
@[simp] theorem runCrc_exchange (bytes : List Byte) : (runCrc bytes s).exchange = s.exchange := rfl
@[simp] theorem runCrc_presented (bytes : List Byte) : (runCrc bytes s).presented = s.presented := rfl
@[simp] theorem runCrc_link (bytes : List Byte) : (runCrc bytes s).link = s.link := rfl

/-! ### loadTx -/

@[simp] theorem loadTx_unitId (unit fn : Byte) (payload : List Byte) : (loadTx unit fn payload s).unitId = s.unitId := rfl
@[simp] theorem loadTx_host (unit fn : Byte) (payload : List Byte) : (loadTx unit fn payload s).host = s.host := rfl
@[simp] theorem loadTx_port (unit fn : Byte) (payload : List Byte) : (loadTx unit fn payload s).port = s.port := rfl
@[simp] theorem loadTx_timeoutSeconds (unit fn : Byte) (payload : List Byte) : (loadTx unit fn payload s).timeoutSeconds = s.timeoutSeconds := rfl
@[simp] theorem loadTx_txCap (unit fn : Byte) (payload : List Byte) : (loadTx unit fn payload s).txCap = s.txCap := rfl
@[simp] theorem loadTx_linkIoError (unit fn : Byte) (payload : List Byte) : (loadTx unit fn payload s).linkIoError = s.linkIoError := rfl
@[simp] theorem loadTx_crcGen (unit fn : Byte) (payload : List Byte) : (loadTx unit fn payload s).crcGen = some (CrcGen.run (requestBody unit fn payload)) := rfl
@[simp] theorem loadTx_txbuf (unit fn : Byte) (payload : List Byte) : (loadTx unit fn payload s).txbuf = some (requestFrame unit fn payload) := rfl
@[simp] theorem loadTx_rxbuf (unit fn : Byte) (payload : List Byte) : (loadTx unit fn payload s).rxbuf = s.rxbuf := rfl
@[simp] theorem loadTx_result (unit fn : Byte) (payload : List Byte) : (loadTx unit fn payload s).result = s.result := rfl
@[simp] theorem loadTx_conn (unit fn : Byte) (payload : List Byte) : (loadTx unit fn payload s).conn = s.conn := rfl
@[simp] theorem loadTx_exchange (unit fn : Byte) (payload : List Byte) : (loadTx unit fn payload s).exchange = s.exchange := rfl
@[simp] theorem loadTx_presented (unit fn : Byte) (payload : List Byte) : (loadTx unit fn payload s).presented = s.presented := rfl
@[simp] theorem loadTx_link (unit fn : Byte) (payload : List Byte) : (loadTx unit fn payload s).link = s.link := rfl

/-! ### deliver -/

@[simp] theorem deliver_unitId (r : Result) : (deliver r s).unitId = s.unitId := rfl
@[simp] theorem deliver_host (r : Result) : (deliver r s).host = s.host := rfl
@[simp] theorem deliver_port (r : Result) : (deliver r s).port = s.port := rfl
@[simp] theorem deliver_timeoutSeconds (r : Result) : (deliver r s).timeoutSeconds = s.timeoutSeconds := rfl
@[simp] theorem deliver_txCap (r : Result) : (deliver r s).txCap = s.txCap := rfl
@[simp] theorem deliver_linkIoError (r : Result) : (deliver r s).linkIoError = s.linkIoError := rfl
@[simp] theorem deliver_crcGen (r : Result) : (deliver r s).crcGen = none := rfl
@[simp] theorem deliver_txbuf (r : Result) : (deliver r s).txbuf = none := rfl
@[simp] theorem deliver_rxbuf (r : Result) : (deliver r s).rxbuf = none := rfl
@[simp] theorem deliver_result (r : Result) : (deliver r s).result = some r := rfl
@[simp] theorem deliver_conn (r : Result) : (deliver r s).conn = s.conn := rfl
@[simp] theorem deliver_exchange (r : Result) : (deliver r s).exchange = none := rfl
@[simp] theorem deliver_presented (r : Result) : (deliver r s).presented = s.presented := rfl
@[simp] theorem deliver_link (r : Result) : (deliver r s).link = s.link := rfl

/-! ### raise -/

@[simp] theorem raise_unitId (f : Failure) : (raise f s).unitId = s.unitId := rfl
@[simp] theorem raise_host (f : Failure) : (raise f s).host = s.host := rfl
@[simp] theorem raise_port (f : Failure) : (raise f s).port = s.port := rfl
@[simp] theorem raise_timeoutSeconds (f : Failure) : (raise f s).timeoutSeconds = s.timeoutSeconds := rfl
@[simp] theorem raise_txCap (f : Failure) : (raise f s).txCap = s.txCap := rfl
@[simp] theorem raise_linkIoError (f : Failure) : (raise f s).linkIoError = s.linkIoError := rfl
@[simp] theorem raise_crcGen (f : Failure) : (raise f s).crcGen = none := rfl
@[simp] theorem raise_txbuf (f : Failure) : (raise f s).txbuf = none := rfl
@[simp] theorem raise_rxbuf (f : Failure) : (raise f s).rxbuf = none := rfl
@[simp] theorem raise_result (f : Failure) : (raise f s).result = some (.failed f) := rfl
@[simp] theorem raise_conn (f : Failure) : (raise f s).conn = s.conn := rfl
@[simp] theorem raise_exchange (f : Failure) : (raise f s).exchange = none := rfl
@[simp] theorem raise_presented (f : Failure) : (raise f s).presented = s.presented := rfl
@[simp] theorem raise_link (f : Failure) : (raise f s).link = s.link := rfl

/-! ### linkOpened -/

@[simp] theorem linkOpened_unitId : (linkOpened s).unitId = s.unitId := rfl
@[simp] theorem linkOpened_host : (linkOpened s).host = s.host := rfl
@[simp] theorem linkOpened_port : (linkOpened s).port = s.port := rfl
@[simp] theorem linkOpened_timeoutSeconds : (linkOpened s).timeoutSeconds = s.timeoutSeconds := rfl
@[simp] theorem linkOpened_txCap : (linkOpened s).txCap = s.txCap := rfl
@[simp] theorem linkOpened_linkIoError : (linkOpened s).linkIoError = s.linkIoError := rfl
@[simp] theorem linkOpened_crcGen : (linkOpened s).crcGen = s.crcGen := rfl
@[simp] theorem linkOpened_txbuf : (linkOpened s).txbuf = s.txbuf := rfl
@[simp] theorem linkOpened_rxbuf : (linkOpened s).rxbuf = s.rxbuf := rfl
@[simp] theorem linkOpened_result : (linkOpened s).result = s.result := rfl
@[simp] theorem linkOpened_conn : (linkOpened s).conn = .opened := rfl
@[simp] theorem linkOpened_exchange : (linkOpened s).exchange = s.exchange := rfl
@[simp] theorem linkOpened_presented : (linkOpened s).presented = s.presented := rfl
@[simp] theorem linkOpened_link : (linkOpened s).link = { s.link.note .opened with opens := s.link.opens.tail, openDraws := s.link.openDraws + 1 } := rfl

/-! ### linkOpenFailed -/

@[simp] theorem linkOpenFailed_unitId (e : LinkErr) : (linkOpenFailed e s).unitId = s.unitId := rfl
@[simp] theorem linkOpenFailed_host (e : LinkErr) : (linkOpenFailed e s).host = s.host := rfl
@[simp] theorem linkOpenFailed_port (e : LinkErr) : (linkOpenFailed e s).port = s.port := rfl
@[simp] theorem linkOpenFailed_timeoutSeconds (e : LinkErr) : (linkOpenFailed e s).timeoutSeconds = s.timeoutSeconds := rfl
@[simp] theorem linkOpenFailed_txCap (e : LinkErr) : (linkOpenFailed e s).txCap = s.txCap := rfl
@[simp] theorem linkOpenFailed_linkIoError (e : LinkErr) : (linkOpenFailed e s).linkIoError = s.linkIoError := rfl
@[simp] theorem linkOpenFailed_crcGen (e : LinkErr) : (linkOpenFailed e s).crcGen = s.crcGen := rfl
@[simp] theorem linkOpenFailed_txbuf (e : LinkErr) : (linkOpenFailed e s).txbuf = s.txbuf := rfl
@[simp] theorem linkOpenFailed_rxbuf (e : LinkErr) : (linkOpenFailed e s).rxbuf = s.rxbuf := rfl
@[simp] theorem linkOpenFailed_result (e : LinkErr) : (linkOpenFailed e s).result = s.result := rfl
@[simp] theorem linkOpenFailed_conn (e : LinkErr) : (linkOpenFailed e s).conn = s.conn := rfl
@[simp] theorem linkOpenFailed_exchange (e : LinkErr) : (linkOpenFailed e s).exchange = s.exchange := rfl
@[simp] theorem linkOpenFailed_presented (e : LinkErr) : (linkOpenFailed e s).presented = s.presented := rfl
@[simp] theorem linkOpenFailed_link (e : LinkErr) : (linkOpenFailed e s).link = { s.link.note (.openFailed e) with opens := s.link.opens.tail, openDraws := s.link.openDraws + 1 } := rfl

/-! ### linkWrote -/

@[simp] theorem linkWrote_unitId (frame : List Byte) : (linkWrote frame s).unitId = s.unitId := rfl
@[simp] theorem linkWrote_host (frame : List Byte) : (linkWrote frame s).host = s.host := rfl
@[simp] theorem linkWrote_port (frame : List Byte) : (linkWrote frame s).port = s.port := rfl
@[simp] theorem linkWrote_timeoutSeconds (frame : List Byte) : (linkWrote frame s).timeoutSeconds = s.timeoutSeconds := rfl
@[simp] theorem linkWrote_txCap (frame : List Byte) : (linkWrote frame s).txCap = s.txCap := rfl
@[simp] theorem linkWrote_linkIoError (frame : List Byte) : (linkWrote frame s).linkIoError = s.linkIoError := rfl
@[simp] theorem linkWrote_crcGen (frame : List Byte) : (linkWrote frame s).crcGen = s.crcGen := rfl
@[simp] theorem linkWrote_txbuf (frame : List Byte) : (linkWrote frame s).txbuf = s.txbuf := rfl
@[simp] theorem linkWrote_rxbuf (frame : List Byte) : (linkWrote frame s).rxbuf = s.rxbuf := rfl
@[simp] theorem linkWrote_result (frame : List Byte) : (linkWrote frame s).result = s.result := rfl
@[simp] theorem linkWrote_conn (frame : List Byte) : (linkWrote frame s).conn = s.conn := rfl
@[simp] theorem linkWrote_exchange (frame : List Byte) : (linkWrote frame s).exchange = s.exchange := rfl
@[simp] theorem linkWrote_presented (frame : List Byte) : (linkWrote frame s).presented = s.presented := rfl
@[simp] theorem linkWrote_link (frame : List Byte) : (linkWrote frame s).link = { s.link.note (.wrote frame) with writes := s.link.writes.tail, writeDraws := s.link.writeDraws + 1 } := rfl

/-! ### linkWriteFailed -/

@[simp] theorem linkWriteFailed_unitId (e : LinkErr) : (linkWriteFailed e s).unitId = s.unitId := rfl
@[simp] theorem linkWriteFailed_host (e : LinkErr) : (linkWriteFailed e s).host = s.host := rfl
@[simp] theorem linkWriteFailed_port (e : LinkErr) : (linkWriteFailed e s).port = s.port := rfl
@[simp] theorem linkWriteFailed_timeoutSeconds (e : LinkErr) : (linkWriteFailed e s).timeoutSeconds = s.timeoutSeconds := rfl
@[simp] theorem linkWriteFailed_txCap (e : LinkErr) : (linkWriteFailed e s).txCap = s.txCap := rfl
@[simp] theorem linkWriteFailed_linkIoError (e : LinkErr) : (linkWriteFailed e s).linkIoError = s.linkIoError := rfl
@[simp] theorem linkWriteFailed_crcGen (e : LinkErr) : (linkWriteFailed e s).crcGen = s.crcGen := rfl
@[simp] theorem linkWriteFailed_txbuf (e : LinkErr) : (linkWriteFailed e s).txbuf = s.txbuf := rfl
@[simp] theorem linkWriteFailed_rxbuf (e : LinkErr) : (linkWriteFailed e s).rxbuf = s.rxbuf := rfl
@[simp] theorem linkWriteFailed_result (e : LinkErr) : (linkWriteFailed e s).result = s.result := rfl
@[simp] theorem linkWriteFailed_conn (e : LinkErr) : (linkWriteFailed e s).conn = s.conn := rfl
@[simp] theorem linkWriteFailed_exchange (e : LinkErr) : (linkWriteFailed e s).exchange = s.exchange := rfl
@[simp] theorem linkWriteFailed_presented (e : LinkErr) : (linkWriteFailed e s).presented = s.presented := rfl
@[simp] theorem linkWriteFailed_link (e : LinkErr) : (linkWriteFailed e s).link = { s.link.note (.writeFailed e) with writes := s.link.writes.tail, writeDraws := s.link.writeDraws + 1 } := rfl

/-! ### takeRead -/

@[simp] theorem takeRead_unitId : (takeRead s).unitId = s.unitId := rfl
@[simp] theorem takeRead_host : (takeRead s).host = s.host := rfl
@[simp] theorem takeRead_port : (takeRead s).port = s.port := rfl
@[simp] theorem takeRead_timeoutSeconds : (takeRead s).timeoutSeconds = s.timeoutSeconds := rfl
@[simp] theorem takeRead_txCap : (takeRead s).txCap = s.txCap := rfl
@[simp] theorem takeRead_linkIoError : (takeRead s).linkIoError = s.linkIoError := rfl
@[simp] theorem takeRead_crcGen : (takeRead s).crcGen = s.crcGen := rfl
@[simp] theorem takeRead_txbuf : (takeRead s).txbuf = s.txbuf := rfl
@[simp] theorem takeRead_rxbuf : (takeRead s).rxbuf = s.rxbuf := rfl
@[simp] theorem takeRead_result : (takeRead s).result = s.result := rfl
@[simp] theorem takeRead_conn : (takeRead s).conn = s.conn := rfl
@[simp] theorem takeRead_exchange : (takeRead s).exchange = s.exchange := rfl
@[simp] theorem takeRead_presented : (takeRead s).presented = s.presented := rfl
@[simp] theorem takeRead_link : (takeRead s).link = { s.link with reads := s.link.reads.tail, readDraws := s.link.readDraws + 1 } := rfl

/-! ### linkReadFailed -/

@[simp] theorem linkReadFailed_unitId (e : LinkErr) : (linkReadFailed e s).unitId = s.unitId := rfl
@[simp] theorem linkReadFailed_host (e : LinkErr) : (linkReadFailed e s).host = s.host := rfl
@[simp] theorem linkReadFailed_port (e : LinkErr) : (linkReadFailed e s).port = s.port := rfl
@[simp] theorem linkReadFailed_timeoutSeconds (e : LinkErr) : (linkReadFailed e s).timeoutSeconds = s.timeoutSeconds := rfl
@[simp] theorem linkReadFailed_txCap (e : LinkErr) : (linkReadFailed e s).txCap = s.txCap := rfl
@[simp] theorem linkReadFailed_linkIoError (e : LinkErr) : (linkReadFailed e s).linkIoError = s.linkIoError := rfl
@[simp] theorem linkReadFailed_crcGen (e : LinkErr) : (linkReadFailed e s).crcGen = s.crcGen := rfl
@[simp] theorem linkReadFailed_txbuf (e : LinkErr) : (linkReadFailed e s).txbuf = s.txbuf := rfl
@[simp] theorem linkReadFailed_rxbuf (e : LinkErr) : (linkReadFailed e s).rxbuf = s.rxbuf := rfl
@[simp] theorem linkReadFailed_result (e : LinkErr) : (linkReadFailed e s).result = s.result := rfl
@[simp] theorem linkReadFailed_conn (e : LinkErr) : (linkReadFailed e s).conn = s.conn := rfl
@[simp] theorem linkReadFailed_exchange (e : LinkErr) : (linkReadFailed e s).exchange = s.exchange := rfl
@[simp] theorem linkReadFailed_presented (e : LinkErr) : (linkReadFailed e s).presented = s.presented := rfl
@[simp] theorem linkReadFailed_link (e : LinkErr) : (linkReadFailed e s).link = s.link.note (.readFailed e) := rfl

/-! ### linkClosed -/

@[simp] theorem linkClosed_unitId : (linkClosed s).unitId = s.unitId := rfl
@[simp] theorem linkClosed_host : (linkClosed s).host = s.host := rfl
@[simp] theorem linkClosed_port : (linkClosed s).port = s.port := rfl
@[simp] theorem linkClosed_timeoutSeconds : (linkClosed s).timeoutSeconds = s.timeoutSeconds := rfl
@[simp] theorem linkClosed_txCap : (linkClosed s).txCap = s.txCap := rfl
@[simp] theorem linkClosed_linkIoError : (linkClosed s).linkIoError = s.linkIoError := rfl
@[simp] theorem linkClosed_crcGen : (linkClosed s).crcGen = s.crcGen := rfl
@[simp] theorem linkClosed_txbuf : (linkClosed s).txbuf = s.txbuf := rfl
@[simp] theorem linkClosed_rxbuf : (linkClosed s).rxbuf = s.rxbuf := rfl
@[simp] theorem linkClosed_result : (linkClosed s).result = s.result := rfl
@[simp] theorem linkClosed_conn : (linkClosed s).conn = .closed := rfl
@[simp] theorem linkClosed_exchange : (linkClosed s).exchange = s.exchange := rfl
@[simp] theorem linkClosed_presented : (linkClosed s).presented = s.presented := rfl
@[simp] theorem linkClosed_link : (linkClosed s).link = s.link.note .closed := rfl

/-! ### presentNext -/

@[simp] theorem presentNext_unitId (p : Presented) : (presentNext p s).unitId = s.unitId := rfl
@[simp] theorem presentNext_host (p : Presented) : (presentNext p s).host = s.host := rfl
@[simp] theorem presentNext_port (p : Presented) : (presentNext p s).port = s.port := rfl
@[simp] theorem presentNext_timeoutSeconds (p : Presented) : (presentNext p s).timeoutSeconds = s.timeoutSeconds := rfl
@[simp] theorem presentNext_txCap (p : Presented) : (presentNext p s).txCap = s.txCap := rfl
@[simp] theorem presentNext_linkIoError (p : Presented) : (presentNext p s).linkIoError = s.linkIoError := rfl
@[simp] theorem presentNext_crcGen (p : Presented) : (presentNext p s).crcGen = s.crcGen := rfl
@[simp] theorem presentNext_txbuf (p : Presented) : (presentNext p s).txbuf = s.txbuf := rfl
@[simp] theorem presentNext_rxbuf (p : Presented) : (presentNext p s).rxbuf = s.rxbuf := rfl
@[simp] theorem presentNext_result (p : Presented) : (presentNext p s).result = s.result := rfl
@[simp] theorem presentNext_conn (p : Presented) : (presentNext p s).conn = s.conn := rfl
@[simp] theorem presentNext_exchange (p : Presented) : (presentNext p s).exchange = s.exchange := rfl
@[simp] theorem presentNext_presented (p : Presented) : (presentNext p s).presented = p :: s.presented := rfl
@[simp] theorem presentNext_link (p : Presented) : (presentNext p s).link = s.link := rfl

/-! ### loadRx -/

@[simp] theorem loadRx_unitId (bytes : List Byte) : (loadRx bytes s).unitId = s.unitId := by
  unfold loadRx; dsimp only; split <;> rfl
@[simp] theorem loadRx_host (bytes : List Byte) : (loadRx bytes s).host = s.host := by
  unfold loadRx; dsimp only; split <;> rfl
@[simp] theorem loadRx_port (bytes : List Byte) : (loadRx bytes s).port = s.port := by
  unfold loadRx; dsimp only; split <;> rfl
@[simp] theorem loadRx_timeoutSeconds (bytes : List Byte) : (loadRx bytes s).timeoutSeconds = s.timeoutSeconds := by
  unfold loadRx; dsimp only; split <;> rfl
@[simp] theorem loadRx_txCap (bytes : List Byte) : (loadRx bytes s).txCap = s.txCap := by
  unfold loadRx; dsimp only; split <;> rfl
@[simp] theorem loadRx_linkIoError (bytes : List Byte) : (loadRx bytes s).linkIoError = s.linkIoError := by
  unfold loadRx; dsimp only; split <;> rfl
@[simp] theorem loadRx_txbuf (bytes : List Byte) : (loadRx bytes s).txbuf = s.txbuf := by
  unfold loadRx; dsimp only; split <;> rfl
@[simp] theorem loadRx_result (bytes : List Byte) : (loadRx bytes s).result = s.result := by
  unfold loadRx; dsimp only; split <;> rfl
@[simp] theorem loadRx_conn (bytes : List Byte) : (loadRx bytes s).conn = s.conn := by
  unfold loadRx; dsimp only; split <;> rfl
@[simp] theorem loadRx_exchange (bytes : List Byte) : (loadRx bytes s).exchange = s.exchange := by
  unfold loadRx; dsimp only; split <;> rfl
@[simp] theorem loadRx_presented (bytes : List Byte) : (loadRx bytes s).presented = s.presented := by
  unfold loadRx; dsimp only; split <;> rfl
@[simp] theorem loadRx_rxbuf (bytes : List Byte) : (loadRx bytes s).rxbuf = some bytes := rfl
@[simp] theorem loadRx_link (bytes : List Byte) : (loadRx bytes s).link = s.link.note (.read bytes) := by
  unfold loadRx; dsimp only; split <;> rfl

/-! ### The link port's record -/

@[simp] theorem Link.note_opens (k : Link) (e : LinkEvent) : (k.note e).opens = k.opens := rfl
@[simp] theorem Link.note_openDraws (k : Link) (e : LinkEvent) : (k.note e).openDraws = k.openDraws := rfl
@[simp] theorem Link.note_writes (k : Link) (e : LinkEvent) : (k.note e).writes = k.writes := rfl
@[simp] theorem Link.note_writeDraws (k : Link) (e : LinkEvent) : (k.note e).writeDraws = k.writeDraws := rfl
@[simp] theorem Link.note_reads (k : Link) (e : LinkEvent) : (k.note e).reads = k.reads := rfl
@[simp] theorem Link.note_readDraws (k : Link) (e : LinkEvent) : (k.note e).readDraws = k.readDraws := rfl
@[simp] theorem Link.note_log (k : Link) (e : LinkEvent) : (k.note e).log = k.log ++ [e] := rfl

end Sys2Proof.Machine
end

