-- ==== Sys2Proof/Laws/Ops.lean ====
section
/-! SUPPORT. One law per shared operation: everything it can do, said once. -/

namespace Sys2Proof.Machine

/-! ### The link agent's answers do not depend on what the block did in between -/

@[simp] theorem writeAnswer_linkOpened (s : State) : writeAnswer (linkOpened s) = writeAnswer s := rfl

@[simp] theorem writeAnswer_loadTx (unit fn : Byte) (payload : List Byte) (s : State) :
    writeAnswer (loadTx unit fn payload s) = writeAnswer s := rfl

@[simp] theorem readAnswer_linkOpened (s : State) : readAnswer (linkOpened s) = readAnswer s := rfl

@[simp] theorem readAnswer_loadTx (unit fn : Byte) (payload : List Byte) (s : State) :
    readAnswer (loadTx unit fn payload s) = readAnswer s := rfl

@[simp] theorem readAnswer_linkWrote (frame : List Byte) (s : State) : readAnswer (linkWrote frame s) = readAnswer s := rfl

@[simp] theorem fitsTx_linkOpened (s : State) (payload : List Byte) : fitsTx (linkOpened s) payload = fitsTx s payload := rfl

theorem readBytes_length (a : ReadAnswer) : (readBytes a).length ≤ rxMax := by
  cases a <;> simp [readBytes, rxMax]

/-! ### whenIdle and receiveRow: the only two ways a meaning ends -/

theorem whenIdle_idle {s : State} (run : State → State) (h : s.exchange = none) : whenIdle s run = .next (run s) := by
  simp [whenIdle, h]

theorem whenIdle_busy {s : State} (run : State → State) (h : s.exchange ≠ none) : whenIdle s run = .fault .operationInProgress := by
  unfold whenIdle
  split
  · contradiction
  · rfl

theorem whenIdle_eq_next {s t : State} {run : State → State} (h : whenIdle s run = .next t) : s.exchange = none ∧ t = run s := by
  unfold whenIdle at h
  split at h
  · rename_i he
    injection h with h
    exact ⟨he, h.symm⟩
  · cases h

theorem receiveRow_eq_next {frame : List Byte} {s t : State} (h : receiveRow frame s = .next t) :
    (s.exchange = none ∧ t = s) ∨ ∃ p, s.exchange = some p ∧ t = receive p (frame.take rxMax) s := by
  unfold receiveRow at h
  split at h
  · rename_i he
    injection h with h
    exact .inl ⟨he, h.symm⟩
  · rename_i p he
    injection h with h
    exact .inr ⟨p, he, h.symm⟩

/-! ### transmit, receiveFromLink, transact -/

/-- The sending half: the four ways it ends (44_transaction.md R170, R175, R176). -/
theorem transmit_cases (unit fn : Byte) (payload : List Byte) (s : State) :
    (∃ e, openAnswer s = .fail e ∧ transmit unit fn payload s = .failed (.connectionFailed e) (linkOpenFailed e s)) ∨
    (openAnswer s = .ok ∧ fitsTx s payload = false ∧
      transmit unit fn payload s = .failed .operandRefused (linkClosed (linkOpened s))) ∨
    (∃ e, openAnswer s = .ok ∧ fitsTx s payload = true ∧ writeAnswer s = .ioError e ∧
      transmit unit fn payload s =
        .failed (ioFailure s e) (linkClosed (linkWriteFailed e (loadTx unit fn payload (linkOpened s))))) ∨
    (openAnswer s = .ok ∧ fitsTx s payload = true ∧ writeAnswer s = .ok ∧
      transmit unit fn payload s =
        .inFlight (linkWrote (requestFrame unit fn payload) (loadTx unit fn payload (linkOpened s)))) := by
  unfold transmit
  cases ho : openAnswer s with
  | fail e => exact .inl ⟨e, rfl, rfl⟩
  | ok =>
    right
    cases hf : fitsTx s payload with
    | false => exact .inl ⟨rfl, rfl, by simp⟩
    | true =>
      right
      cases hw : writeAnswer s with
      | ioError e => exact .inl ⟨e, rfl, rfl, rfl, by simp [hw]⟩
      | ok => exact .inr ⟨rfl, rfl, rfl, by simp [hw]⟩

/-- The one read: an I/O error, or the bytes of the answer are received (44_transaction.md R170 step 4, R175). -/
theorem receiveFromLink_cases (p : Purpose) (s : State) :
    (∃ e, readAnswer s = .ioError e ∧
      receiveFromLink p s = raise (ioFailure s e) (linkClosed (linkReadFailed e (takeRead s)))) ∨
    ((∀ e, readAnswer s ≠ .ioError e) ∧ receiveFromLink p s = receive p (readBytes (readAnswer s)) (takeRead s)) := by
  unfold receiveFromLink
  cases readAnswer s with
  | ioError e => exact .inl ⟨e, rfl, rfl⟩
  | bytes bs => exact .inr ⟨fun _ h => (nomatch h), rfl⟩
  | timeout => exact .inr ⟨fun _ h => (nomatch h), rfl⟩
  | peerClosed => exact .inr ⟨fun _ h => (nomatch h), rfl⟩

/-- `receive` in one line per field: the result, everything dead, the connection closed, two events recorded. -/
theorem receive_eq (p : Purpose) (bytes : List Byte) (s : State) :
    receive p bytes s =
      { s with
        result := some (answerResult p s.txbuf bytes), exchange := none, crcGen := none, txbuf := none, rxbuf := none,
        conn := .closed, link := (s.link.note (.read bytes)).note .closed } := by
  unfold receive loadRx
  dsimp only
  split <;> rfl

/-- A whole round trip whose link answers let it through. -/
theorem transact_answered {s : State} {received : List Byte} (p : Purpose) (fn : Byte) (payload : List Byte)
    (hf : fitsTx s payload = true) (h : LinkAnswers s received) :
    transact p fn payload s =
      receive p received (takeRead (linkWrote (requestFrame s.unitId fn payload) (loadTx s.unitId fn payload (linkOpened s)))) := by
  obtain ⟨ho, hw, a, ha, hne, rfl⟩ := h
  unfold transact
  rcases transmit_cases s.unitId fn payload s with ⟨e, h1, _⟩ | ⟨_, h1, _⟩ | ⟨e, _, _, h1, _⟩ | ⟨_, _, _, h1⟩
  · simp [ho] at h1
  · simp [hf] at h1
  · simp [hw] at h1
  · rw [h1]
    dsimp only
    rcases receiveFromLink_cases p (linkWrote (requestFrame s.unitId fn payload) (loadTx s.unitId fn payload (linkOpened s)))
      with ⟨e, h2, _⟩ | ⟨_, h2⟩
    · simp only [readAnswer_linkWrote, readAnswer_loadTx, readAnswer_linkOpened, ha] at h2
      exact absurd h2 (hne e)
    · rw [h2]
      simp [ha]

/-! ### The configuration -/

theorem ConfigKept.refl (s : State) : ConfigKept s s := ⟨rfl, rfl, rfl, rfl, rfl, rfl⟩

theorem ConfigKept.trans {s t u : State} (h : ConfigKept s t) (h' : ConfigKept t u) : ConfigKept s u := by
  obtain ⟨a, b, c, d, e, f⟩ := h
  obtain ⟨a', b', c', d', e', f'⟩ := h'
  exact ⟨a'.trans a, b'.trans b, c'.trans c, d'.trans d, e'.trans e, f'.trans f⟩

/-- Whatever the sending half comes to, the configuration and the input are untouched. -/
theorem transmit_kept {unit fn : Byte} {payload : List Byte} {s s' : State} {r : Sent} (h : transmit unit fn payload s = r)
    (hr : r = .inFlight s' ∨ ∃ f, r = .failed f s') : ConfigKept s s' ∧ s'.presented = s.presented := by
  subst h
  rcases transmit_cases unit fn payload s with ⟨e, _, h1⟩ | ⟨_, _, h1⟩ | ⟨e, _, _, _, h1⟩ | ⟨_, _, _, h1⟩ <;>
    rw [h1] at hr <;> rcases hr with hr | ⟨f, hr⟩ <;> cases hr <;> exact ⟨⟨rfl, rfl, rfl, rfl, rfl, rfl⟩, rfl⟩

end Sys2Proof.Machine
end

