-- ==== Sys2Proof/Laws/Exchange.lean ====
section
/-! SUPPORT. Everything a round trip, a typed operation and a request row can come to, each said once, and what the record of the link then holds. -/

namespace Sys2Proof.Machine

/-- The state in which a request has gone out: connection open, frame in TXBUF and on the wire. -/
abbrev afterWrite (unit fn : Byte) (payload : List Byte) (s : State) : State :=
  linkWrote (requestFrame unit fn payload) (loadTx unit fn payload (linkOpened s))

/-- Where the link agent lets the connection and the write through, the read is an I/O error or brings bytes. -/
theorem readAnswer_cases {s : State} (ho : openAnswer s = .ok) (hw : writeAnswer s = .ok) :
    (∃ e, readAnswer s = .ioError e) ∨ ∃ received, LinkAnswers s received := by
  by_cases h : ∃ e, readAnswer s = .ioError e
  · exact .inl h
  · exact .inr ⟨_, ho, hw, _, rfl, fun e he => h ⟨e, he⟩, rfl⟩

theorem LinkAnswers.length_le {s : State} {received : List Byte} (h : LinkAnswers s received) : received.length ≤ rxMax := by
  obtain ⟨_, _, a, _, _, rfl⟩ := h
  exact readBytes_length a

/-- A whole round trip ends in one of five ways (44_transaction.md R170, R172 to R176). -/
theorem transact_cases (p : Purpose) (fn : Byte) (payload : List Byte) (s : State) :
    (∃ e, openAnswer s = .fail e ∧ transact p fn payload s = raise (.connectionFailed e) (linkOpenFailed e s)) ∨
    (openAnswer s = .ok ∧ fitsTx s payload = false ∧
      transact p fn payload s = raise .operandRefused (linkClosed (linkOpened s))) ∨
    (∃ e, openAnswer s = .ok ∧ fitsTx s payload = true ∧ writeAnswer s = .ioError e ∧
      transact p fn payload s =
        raise (ioFailure s e) (linkClosed (linkWriteFailed e (loadTx s.unitId fn payload (linkOpened s))))) ∨
    (∃ e, openAnswer s = .ok ∧ fitsTx s payload = true ∧ writeAnswer s = .ok ∧ readAnswer s = .ioError e ∧
      transact p fn payload s =
        raise (ioFailure s e) (linkClosed (linkReadFailed e (takeRead (afterWrite s.unitId fn payload s))))) ∨
    (∃ received, fitsTx s payload = true ∧ LinkAnswers s received ∧
      transact p fn payload s = receive p received (takeRead (afterWrite s.unitId fn payload s))) := by
  rcases transmit_cases s.unitId fn payload s with ⟨e, h1, h2⟩ | ⟨h1, h2, h3⟩ | ⟨e, h1, h2, h3, h4⟩ | ⟨h1, h2, h3, h4⟩
  · exact .inl ⟨e, h1, by simp only [transact, h2]⟩
  · exact .inr (.inl ⟨h1, h2, by simp only [transact, h3]⟩)
  · exact .inr (.inr (.inl ⟨e, h1, h2, h3, by simp only [transact, h4]⟩))
  · rcases readAnswer_cases h1 h3 with ⟨e, he⟩ | ⟨received, hr⟩
    · refine .inr (.inr (.inr (.inl ⟨e, h1, h2, h3, he, ?_⟩)))
      have he' : readAnswer (afterWrite s.unitId fn payload s) = .ioError e := he
      simp only [transact, h4, receiveFromLink, he']
      rfl
    · exact .inr (.inr (.inr (.inr ⟨received, h2, hr, transact_answered p fn payload h2 hr⟩)))

/-- A typed operation whose request fits TX_CAP is one round trip. -/
theorem typedTransact_fits {s : State} {payload : List Byte} (p : Purpose) (fn : Byte) (h : fitsTx s payload = true) :
    typedTransact p fn payload s = transact p fn payload s := by
  simp only [typedTransact, h, if_true]

/-- A typed operation whose request does not fit TX_CAP is refused. -/
theorem typedTransact_refused {s : State} {payload : List Byte} (p : Purpose) (fn : Byte) (h : fitsTx s payload = false) :
    typedTransact p fn payload s = raise .operandRefused s := by
  simp only [typedTransact, h, Bool.false_eq_true, if_false]

/-- A request row ends in one of four ways; only in the last is the request in flight (log 9). -/
theorem sendRow_cases (p : Purpose) (unit fn : Byte) (payload : List Byte) (s : State) :
    (fitsTx s payload = false ∧ sendRow p unit fn payload s = raise .operandRefused s) ∨
    (∃ e, fitsTx s payload = true ∧ openAnswer s = .fail e ∧
      sendRow p unit fn payload s = raise (.connectionFailed e) (linkOpenFailed e s)) ∨
    (∃ e, fitsTx s payload = true ∧ openAnswer s = .ok ∧ writeAnswer s = .ioError e ∧
      sendRow p unit fn payload s =
        raise (ioFailure s e) (linkClosed (linkWriteFailed e (loadTx unit fn payload (linkOpened s))))) ∨
    (fitsTx s payload = true ∧ openAnswer s = .ok ∧ writeAnswer s = .ok ∧
      sendRow p unit fn payload s =
        { afterWrite unit fn payload s with exchange := some p, result := none, crcGen := none }) := by
  cases hf : fitsTx s payload with
  | false => exact .inl ⟨rfl, by simp only [sendRow, hf, Bool.false_eq_true, if_false]⟩
  | true =>
    right
    rcases transmit_cases unit fn payload s with ⟨e, h1, h2⟩ | ⟨_, h2, _⟩ | ⟨e, h1, _, h3, h4⟩ | ⟨h1, _, h3, h4⟩
    · exact .inl ⟨e, rfl, h1, by simp only [sendRow, hf, if_true, h2]⟩
    · rw [hf] at h2; cases h2
    · exact .inr (.inl ⟨e, rfl, h1, h3, by simp only [sendRow, hf, if_true, h4]⟩)
    · exact .inr (.inr ⟨rfl, h1, h3, by simp only [sendRow, hf, if_true, h4]⟩)

/-- Bytes that arrive while a request is out are received. -/
theorem receiveRow_inFlight {s : State} {p : Purpose} (frame : List Byte) (h : s.exchange = some p) :
    receiveRow frame s = .next (receive p (frame.take rxMax) s) := by
  simp only [receiveRow, h]

/-- Bytes that arrive with no request out are ignored. -/
theorem receiveRow_idle {s : State} (frame : List Byte) (h : s.exchange = none) : receiveRow frame s = .next s := by
  simp only [receiveRow, h]

end Sys2Proof.Machine
end

