-- ==== Sys2Proof/Laws/Exec.lean ====
section
/-! SUPPORT. One law per operation and request row: with no exchange in flight, the next state in closed form. Response rows are `receiveRow` of their frame by definition. -/

namespace Sys2Proof.Machine

variable {s : State} (h : s.exchange = none)
include h

theorem exec_crc16 (bytes : List Byte) :
    exec (.crc16 bytes) s = .next (deliver (.ok (.crcOut (CrcGen.run bytes).crc)) (runCrc bytes s)) :=
  whenIdle_idle (fun s => deliver (.ok (.crcOut (CrcGen.run bytes).crc)) (runCrc bytes s)) h

theorem exec_buildRequest_fits (unit fn : Byte) (payload : List Byte) (hf : fitsTx s payload = true) :
    exec (.buildRequest unit fn payload) s =
      .next (deliver (.ok (.outFrame (requestFrame unit fn payload))) (loadTx unit fn payload s)) := by
  simp only [exec, execBuildRequest, whenIdle_idle _ h, hf, if_true]

theorem exec_buildRequest_refused (unit fn : Byte) (payload : List Byte) (hf : fitsTx s payload = false) :
    exec (.buildRequest unit fn payload) s = .next (raise .operandRefused s) := by
  simp only [exec, execBuildRequest, whenIdle_idle _ h, hf, Bool.false_eq_true, if_false]

theorem exec_validateResponse (frame : List Byte) (expected : Option Byte) :
    exec (.validateResponse frame expected) s = .next (deliver (validationResult frame) s) := by
  simp only [exec, execValidateResponse, whenIdle_idle _ h]
  split <;> rfl

theorem exec_sendRequest (fn : Byte) (payload : List Byte) :
    exec (.sendRequest fn payload) s = .next (transact .raw fn payload s) :=
  whenIdle_idle _ h

theorem exec_readStatus (r : ReadOperands) :
    exec (.readStatus r) s = .next (typedTransact (.bits (readStart r) (readQuantity statusQuantity r)) 0x01
      (twoWordPayload (readStart r) (readQuantity statusQuantity r)) s) :=
  whenIdle_idle _ h

theorem exec_readAlarms (r : ReadOperands) :
    exec (.readAlarms r) s = .next (typedTransact (.bits (readStart r) (readQuantity alarmsQuantity r)) 0x02
      (twoWordPayload (readStart r) (readQuantity alarmsQuantity r)) s) :=
  whenIdle_idle _ h

theorem exec_readSensors (r : ReadOperands) :
    exec (.readSensors r) s = .next (typedTransact (.words .sensor (readStart r) (readQuantity sensorsQuantity r)) 0x03
      (twoWordPayload (readStart r) (readQuantity sensorsQuantity r)) s) :=
  whenIdle_idle _ h

theorem exec_readConfiguration (r : ReadOperands) :
    exec (.readConfiguration r) s =
      .next (typedTransact (.words .configuration (readStart r) (readQuantity configurationQuantity r)) 0x03
        (twoWordPayload (readStart r) (readQuantity configurationQuantity r)) s) :=
  whenIdle_idle _ h

theorem exec_writeSingleCoil (a : Word16) (v : Bool) :
    exec (.writeSingleCoil a v) s = .next (typedTransact .echo 0x05 (twoWordPayload a (coilWord v)) s) :=
  whenIdle_idle _ h

theorem exec_writeSingleRegister (a v : Word16) :
    exec (.writeSingleRegister a v) s = .next (typedTransact .echo 0x06 (twoWordPayload a v) s) :=
  whenIdle_idle _ h

theorem exec_writeMultipleRegisters (a : Word16) (vs : List Word16) (hl : vs.length ≤ writeMultipleMax) :
    exec (.writeMultipleRegisters a vs) s = .next (typedTransact .echoPrefix 0x10 (multiplePayload a vs) s) := by
  simp only [exec, execWriteMultipleRegisters, whenIdle_idle _ h, hl, if_true]

theorem exec_writeMultipleRegisters_refused (a : Word16) (vs : List Word16) (hl : ¬ vs.length ≤ writeMultipleMax) :
    exec (.writeMultipleRegisters a vs) s = .next (raise .operandRefused s) := by
  simp only [exec, execWriteMultipleRegisters, whenIdle_idle _ h, hl, if_false]

theorem exec_reqRead01 (u : Byte) (a q : Word16) :
    exec (.reqRead01 u a q) s = .next (sendRow (.bits a q) u 0x01 (twoWordPayload a q) s) :=
  whenIdle_idle _ h

theorem exec_reqRead02 (u : Byte) (a q : Word16) :
    exec (.reqRead02 u a q) s = .next (sendRow (.bits a q) u 0x02 (twoWordPayload a q) s) :=
  whenIdle_idle _ h

theorem exec_reqRead03 (u : Byte) (a q : Word16) :
    exec (.reqRead03 u a q) s =
      .next (sendRow (.words (Config.wireTableDraw s.link.openDraws) a q) u 0x03 (twoWordPayload a q) s) :=
  whenIdle_idle _ h

theorem exec_reqWriteCoil05 (u : Byte) (a : Word16) (v : Bool) :
    exec (.reqWriteCoil05 u a v) s = .next (sendRow .echo u 0x05 (twoWordPayload a (coilWord v)) s) :=
  whenIdle_idle _ h

theorem exec_reqWriteReg06 (u : Byte) (a v : Word16) :
    exec (.reqWriteReg06 u a v) s = .next (sendRow .echo u 0x06 (twoWordPayload a v) s) :=
  whenIdle_idle _ h

theorem exec_reqWriteMulti10 (u : Byte) (a : Word16) (vs : List Word16) (hl : vs.length ≤ writeMultipleMax) :
    exec (.reqWriteMulti10 u a vs) s = .next (sendRow .echoPrefix u 0x10 (multiplePayload a vs) s) := by
  simp only [exec, execReqWriteMulti10, whenIdle_idle _ h, hl, if_true]

end Sys2Proof.Machine
end

