-- ==== Sys2Proof/Laws/Gather.lean ====
section
/-! SUPPORT. Laws of `gather` and of the two decoders built on it. -/

namespace Sys2Proof.Machine

/-- `gather` succeeds exactly when every entry exists, and then lists them in order. -/
theorem gather_eq_some_iff {α : Type} (entry : Nat → Option α) (n : Nat) (xs : List α) :
    gather entry n = some xs ↔ xs.length = n ∧ ∀ i, i < n → entry i = xs[i]? := by
  induction n generalizing xs with
  | zero => simp [gather]
  | succ n ih =>
    simp only [gather]
    constructor
    · intro h
      split at h
      · rename_i ys y hy hx
        obtain rfl := Option.some.inj h
        obtain ⟨hl, he⟩ := (ih ys).1 hy
        refine ⟨by simp [hl], fun i hi => ?_⟩
        by_cases h' : i < n
        · rw [he i h', List.getElem?_append_left (by omega)]
        · obtain rfl : i = n := by omega
          rw [hx, ← hl]; simp
      · cases h
    · rintro ⟨hl, he⟩
      have hne : xs ≠ [] := by intro h; simp [h] at hl
      have hlast := he n (by omega)
      have hsplit : xs = xs.dropLast ++ [xs.getLast hne] := (List.dropLast_append_getLast hne).symm
      have hd : gather entry n = some xs.dropLast := by
        refine (ih _).2 ⟨by simp [hl], fun i hi => ?_⟩
        rw [he i (by omega), List.getElem?_dropLast, if_pos (by omega)]
      have hg : entry n = some (xs.getLast hne) := by
        rw [hlast, List.getLast_eq_getElem, List.getElem?_eq_getElem (by omega)]
        congr 2; omega
      rw [hd, hg]
      simp [List.dropLast_append_getLast]

/-- Under the precondition of R131 every byte of the announced data exists. -/
theorem decodeDefined_byte {resp : List Byte} {need i : Nat} (h : decodeDefined resp need = true) (hi : i < need) :
    ∃ b, resp[3 + i]? = some b := by
  unfold decodeDefined at h
  split at h
  · simp only [Bool.and_eq_true, decide_eq_true_eq] at h
    exact ⟨_, List.getElem?_eq_getElem (by omega)⟩
  · cases h

/-- A bit decode is defined exactly under R131, and then has one entry per address, in order (42_read_ops.md R123, R131, R133). -/
theorem decodeBits_eq_some_iff (resp : List Byte) (start quantity : Word16) (entries : List (Nat × Bool)) :
    decodeBits resp start quantity = some entries ↔
      decodeDefined resp ((quantity.toNat + 7) / 8) = true ∧ entries.length = quantity.toNat ∧
        ∀ i, i < quantity.toNat → bitEntry resp start i = entries[i]? := by
  simp only [decodeBits]
  split
  · simp_all [gather_eq_some_iff]
  · simp_all

/-- A word decode is defined exactly under R131, and then has one entry per address, in order (42_read_ops.md R126, R131, R133). -/
theorem decodeWords_eq_some_iff (table : ScaleTable) (resp : List Byte) (start quantity : Word16) (entries : List (Nat × Scaled)) :
    decodeWords table resp start quantity = some entries ↔
      decodeDefined resp (2 * quantity.toNat) = true ∧ entries.length = quantity.toNat ∧
        ∀ i, i < quantity.toNat → wordEntry table resp start i = entries[i]? := by
  simp only [decodeWords]
  split
  · simp_all [gather_eq_some_iff]
  · simp_all

/-- R131 is enough: the bit decode never runs past the bytes received. -/
theorem decodeBits_isSome {resp : List Byte} {start quantity : Word16}
    (h : decodeDefined resp ((quantity.toNat + 7) / 8) = true) : ∃ entries, decodeBits resp start quantity = some entries := by
  have hall : ∀ n, n ≤ quantity.toNat → ∃ xs, gather (bitEntry resp start) n = some xs := by
    intro n
    induction n with
    | zero => exact fun _ => ⟨[], rfl⟩
    | succ n ih =>
      intro hn
      obtain ⟨xs, hxs⟩ := ih (by omega)
      obtain ⟨b, hb⟩ := decodeDefined_byte (i := n / 8) h (by omega)
      exact ⟨_, by simp only [gather, hxs, bitEntry, hb, Option.map_some]; rfl⟩
  obtain ⟨xs, hxs⟩ := hall _ le_rfl
  exact ⟨xs, by simp [decodeBits, h, hxs]⟩

/-- R131 is enough: the word decode never runs past the bytes received. -/
theorem decodeWords_isSome {table : ScaleTable} {resp : List Byte} {start quantity : Word16}
    (h : decodeDefined resp (2 * quantity.toNat) = true) : ∃ entries, decodeWords table resp start quantity = some entries := by
  have hall : ∀ n, n ≤ quantity.toNat → ∃ xs, gather (wordEntry table resp start) n = some xs := by
    intro n
    induction n with
    | zero => exact fun _ => ⟨[], rfl⟩
    | succ n ih =>
      intro hn
      obtain ⟨xs, hxs⟩ := ih (by omega)
      obtain ⟨b, hb⟩ := decodeDefined_byte (i := 2 * n) h (by omega)
      obtain ⟨c, hc⟩ := decodeDefined_byte (i := 2 * n + 1) h (by omega)
      rw [show 3 + (2 * n + 1) = 4 + 2 * n by omega] at hc
      exact ⟨_, by simp only [gather, hxs, wordEntry, hb, hc]; rfl⟩
  obtain ⟨xs, hxs⟩ := hall _ le_rfl
  exact ⟨xs, by simp [decodeWords, h, hxs]⟩

end Sys2Proof.Machine
end

