-- ==== Sys2Proof/Laws/Over.lean ====
section
/-! SUPPORT. Frames: what every shared operation keeps, and what the link port looks like after each ending of an exchange. -/

namespace Sys2Proof.Machine

/-! ### The link port -/

theorem linkAfter_zero (k : Link) : linkAfter k 0 0 0 [] = k := by simp [linkAfter]

theorem linkAfter_linkAfter (k : Link) (o w r o' w' r' : Nat) (es es' : List LinkEvent) :
    linkAfter (linkAfter k o w r es) o' w' r' es' = linkAfter k (o + o') (w + w') (r + r') (es ++ es') := by
  simp [linkAfter, List.drop_drop, Nat.add_assoc]

theorem note_eq_linkAfter (k : Link) (e : LinkEvent) : k.note e = linkAfter k 0 0 0 [e] := by simp [linkAfter, Link.note]

theorem linkOpened_linkAfter (s : State) : (linkOpened s).link = linkAfter s.link 1 0 0 [.opened] := by simp [linkAfter]

theorem linkOpenFailed_linkAfter (e : LinkErr) (s : State) :
    (linkOpenFailed e s).link = linkAfter s.link 1 0 0 [.openFailed e] := by simp [linkAfter]

theorem linkWrote_linkAfter (frame : List Byte) (s : State) :
    (linkWrote frame s).link = linkAfter s.link 0 1 0 [.wrote frame] := by simp [linkAfter]

theorem linkWriteFailed_linkAfter (e : LinkErr) (s : State) :
    (linkWriteFailed e s).link = linkAfter s.link 0 1 0 [.writeFailed e] := by simp [linkAfter]

theorem takeRead_linkAfter (s : State) : (takeRead s).link = linkAfter s.link 0 0 1 [] := by simp [linkAfter]

theorem linkReadFailed_linkAfter (e : LinkErr) (s : State) :
    (linkReadFailed e s).link = linkAfter s.link 0 0 0 [.readFailed e] := note_eq_linkAfter _ _

theorem linkClosed_linkAfter (s : State) : (linkClosed s).link = linkAfter s.link 0 0 0 [.closed] := note_eq_linkAfter _ _

theorem receive_linkAfter (p : Purpose) (bytes : List Byte) (s : State) :
    (receive p bytes s).link = linkAfter s.link 0 0 0 [.read bytes, .closed] := by
  rw [receive_eq, note_eq_linkAfter, note_eq_linkAfter, linkAfter_linkAfter]
  rfl

theorem afterWrite_linkAfter (unit fn : Byte) (payload : List Byte) (s : State) :
    (afterWrite unit fn payload s).link = linkAfter s.link 1 1 0 [.opened, .wrote (requestFrame unit fn payload)] := by
  simp [linkAfter]

/-! ### Configuration and input are kept -/

/-- Configuration and input untouched. -/
def Kept (s t : State) : Prop := ConfigKept s t ∧ t.presented = s.presented

theorem Kept.refl (s : State) : Kept s s := ⟨.refl s, rfl⟩

theorem Kept.trans {s t u : State} (h : Kept s t) (h' : Kept t u) : Kept s u := ⟨h.1.trans h'.1, h'.2.trans h.2⟩

theorem kept_deliver (r : Result) (s : State) : Kept s (deliver r s) := ⟨⟨rfl, rfl, rfl, rfl, rfl, rfl⟩, rfl⟩
theorem kept_loadTx (unit fn : Byte) (payload : List Byte) (s : State) : Kept s (loadTx unit fn payload s) :=
  ⟨⟨rfl, rfl, rfl, rfl, rfl, rfl⟩, rfl⟩
theorem kept_linkOpened (s : State) : Kept s (linkOpened s) := ⟨⟨rfl, rfl, rfl, rfl, rfl, rfl⟩, rfl⟩
theorem kept_linkOpenFailed (e : LinkErr) (s : State) : Kept s (linkOpenFailed e s) := ⟨⟨rfl, rfl, rfl, rfl, rfl, rfl⟩, rfl⟩
theorem kept_linkWrote (frame : List Byte) (s : State) : Kept s (linkWrote frame s) := ⟨⟨rfl, rfl, rfl, rfl, rfl, rfl⟩, rfl⟩
theorem kept_linkWriteFailed (e : LinkErr) (s : State) : Kept s (linkWriteFailed e s) := ⟨⟨rfl, rfl, rfl, rfl, rfl, rfl⟩, rfl⟩
theorem kept_takeRead (s : State) : Kept s (takeRead s) := ⟨⟨rfl, rfl, rfl, rfl, rfl, rfl⟩, rfl⟩
theorem kept_linkReadFailed (e : LinkErr) (s : State) : Kept s (linkReadFailed e s) := ⟨⟨rfl, rfl, rfl, rfl, rfl, rfl⟩, rfl⟩
theorem kept_linkClosed (s : State) : Kept s (linkClosed s) := ⟨⟨rfl, rfl, rfl, rfl, rfl, rfl⟩, rfl⟩
theorem kept_receive (p : Purpose) (bytes : List Byte) (s : State) : Kept s (receive p bytes s) := by
  rw [receive_eq]
  exact ⟨⟨rfl, rfl, rfl, rfl, rfl, rfl⟩, rfl⟩
theorem kept_afterWrite (unit fn : Byte) (payload : List Byte) (s : State) : Kept s (afterWrite unit fn payload s) :=
  ((kept_linkOpened s).trans (kept_loadTx unit fn payload _)).trans (kept_linkWrote _ _)

/-- Delivering a result ends the operation. -/
theorem over_deliver {s t : State} (r : Result) (h : Kept s t) : Over s (deliver r t) :=
  ⟨(h.trans (kept_deliver r t)).1, (h.trans (kept_deliver r t)).2, rfl, rfl, rfl, rfl⟩

/-- So does raising a failure. -/
theorem over_raise {s t : State} (f : Failure) (h : Kept s t) : Over s (raise f t) := over_deliver _ h

/-- So does receiving an answer. -/
theorem over_receive {s t : State} (p : Purpose) (bytes : List Byte) (h : Kept s t) : Over s (receive p bytes t) :=
  ⟨(h.trans (kept_receive p bytes t)).1, (h.trans (kept_receive p bytes t)).2, by rw [receive_eq], by rw [receive_eq]; exact ⟨rfl, rfl, rfl⟩⟩

/-- Delivering a result without touching the link port. -/
theorem overOffLink_deliver (r : Result) (s : State) : OverOffLink s (deliver r s) := ⟨over_deliver r (.refl s), rfl, rfl⟩

/-- A whole round trip that is answered ends over, closed, with four events more (44_transaction.md R170). -/
theorem overRoundTrip_transact {s : State} {received : List Byte} (p : Purpose) (fn : Byte) (payload : List Byte)
    (hf : fitsTx s payload = true) (h : LinkAnswers s received) :
    OverRoundTrip s (transact p fn payload s) (requestFrame s.unitId fn payload) received ∧
      (transact p fn payload s).result = some (answerResult p (some (requestFrame s.unitId fn payload)) received) := by
  rw [transact_answered p fn payload hf h]
  refine ⟨⟨over_receive p received ((kept_afterWrite s.unitId fn payload s).trans (kept_takeRead _)), by rw [receive_eq], ?_⟩, ?_⟩
  · rw [receive_linkAfter, takeRead_linkAfter, afterWrite_linkAfter, linkAfter_linkAfter, linkAfter_linkAfter]
    rfl
  · rw [receive_eq]
    rfl

end Sys2Proof.Machine
end

