-- ==== Sys2Proof/Laws/PerInstr.lean ====
section
/-! SUPPORT. Per-instruction family TableMatch: what the encoder writes for an instruction lies in that instruction's own row of the opcode table (30_encoding.md R70). -/

namespace Sys2Proof.Laws.TableMatch

open Sys2Proof Sys2Proof.Machine

/-- The encoding of an instruction is in its row's decode space and meets its row's match under the mask. -/
def Statement (i : Instr) : Prop := i.row.accepts (encode i) = true

/-- A selector lies in a CMD row whose match it meets. -/
theorem accepts_operation (op : BitVec 4) (operands : List Byte) (r : TableRow) {p m : Byte} (hs : r.space = .cmd)
    (hp : r.pattern = p) (hk : r.mask = m) (hm : op.setWidth 8 &&& m = p) : r.accepts (.cmd op operands) = true := by
  simp only [TableRow.accepts, Presented.space, Presented.selector, hs, hp, hk, hm, beq_self_eq_true, Bool.and_self]

/-- A request frame has its function code at offset 1 and lies in a REQ row whose match it meets. -/
theorem accepts_request (unit fn : Byte) (payload : List Byte) (r : TableRow) {p m : Byte} (hs : r.space = .req)
    (hp : r.pattern = p) (hk : r.mask = m) (hm : fn &&& m = p) : r.accepts (.req (requestFrame unit fn payload)) = true := by
  have h1 : (requestFrame unit fn payload)[1]? = some fn := by rw [requestFrame_eq]; rfl
  simp only [TableRow.accepts, Presented.space, Presented.selector, h1, hs, hp, hk, hm, beq_self_eq_true, Bool.and_self]

/-- A response frame has its function code at offset 1 and lies in an RSP row whose match it meets. -/
theorem accepts_response (unit fn : Byte) (payload : List Byte) (crc : Word16) (r : TableRow) {p m : Byte} (hs : r.space = .rsp)
    (hp : r.pattern = p) (hk : r.mask = m) (hm : fn &&& m = p) : r.accepts (.rsp (responseFrame unit fn payload crc)) = true := by
  have h1 : (responseFrame unit fn payload crc)[1]? = some fn := rfl
  simp only [TableRow.accepts, Presented.space, Presented.selector, h1, hs, hp, hk, hm, beq_self_eq_true, Bool.and_self]

/-- The function code of an exception response has bit 7 set, whatever its low seven bits (30_encoding.md R62). -/
theorem exceptionFunction_bit7 (function : BitVec 7) : exceptionFunction function &&& 0x80 = 0x80 := by
  revert function; decide

theorem crc16 (bytes : List Byte) : Statement (.crc16 bytes) :=
  accepts_operation _ _ _ (p := 0x0) (m := 0xF) rfl rfl rfl (by decide)

theorem buildRequest (unitId functionCode : Byte) (payload : List Byte) : Statement (.buildRequest unitId functionCode payload) :=
  accepts_operation _ _ _ (p := 0x1) (m := 0xF) rfl rfl rfl (by decide)

theorem sendRequest (functionCode : Byte) (payload : List Byte) : Statement (.sendRequest functionCode payload) :=
  accepts_operation _ _ _ (p := 0x3) (m := 0xF) rfl rfl rfl (by decide)

theorem readStatus (operands : ReadOperands) : Statement (.readStatus operands) :=
  accepts_operation _ _ _ (p := 0x4) (m := 0xF) rfl rfl rfl (by decide)

theorem readAlarms (operands : ReadOperands) : Statement (.readAlarms operands) :=
  accepts_operation _ _ _ (p := 0x5) (m := 0xF) rfl rfl rfl (by decide)

theorem readSensors (operands : ReadOperands) : Statement (.readSensors operands) :=
  accepts_operation _ _ _ (p := 0x6) (m := 0xF) rfl rfl rfl (by decide)

theorem readConfiguration (operands : ReadOperands) : Statement (.readConfiguration operands) :=
  accepts_operation _ _ _ (p := 0x7) (m := 0xF) rfl rfl rfl (by decide)

theorem writeSingleCoil (address : Word16) (value : Bool) : Statement (.writeSingleCoil address value) :=
  accepts_operation _ _ _ (p := 0x8) (m := 0xF) rfl rfl rfl (by decide)

theorem writeSingleRegister (address value : Word16) : Statement (.writeSingleRegister address value) :=
  accepts_operation _ _ _ (p := 0x9) (m := 0xF) rfl rfl rfl (by decide)

theorem writeMultipleRegisters (startAddress : Word16) (values : List Word16) : Statement (.writeMultipleRegisters startAddress values) :=
  accepts_operation _ _ _ (p := 0xA) (m := 0xF) rfl rfl rfl (by decide)

theorem validateResponse (frame : List Byte) : ∀ expectedUnitId : Option Byte, Statement (.validateResponse frame expectedUnitId)
  | none => accepts_operation _ _ _ (p := 0x2) (m := 0xF) rfl rfl rfl (by decide)
  | some _ => accepts_operation _ _ _ (p := 0x2) (m := 0xF) rfl rfl rfl (by decide)

theorem reqRead01 (unit : Byte) (start quantity : Word16) : Statement (.reqRead01 unit start quantity) :=
  accepts_request _ _ _ _ (p := 0x01) (m := 0xFF) rfl rfl rfl (by decide)

theorem reqRead02 (unit : Byte) (start quantity : Word16) : Statement (.reqRead02 unit start quantity) :=
  accepts_request _ _ _ _ (p := 0x02) (m := 0xFF) rfl rfl rfl (by decide)

theorem reqRead03 (unit : Byte) (start quantity : Word16) : Statement (.reqRead03 unit start quantity) :=
  accepts_request _ _ _ _ (p := 0x03) (m := 0xFF) rfl rfl rfl (by decide)

theorem reqWriteCoil05 (unit : Byte) (address : Word16) (value : Bool) : Statement (.reqWriteCoil05 unit address value) :=
  accepts_request _ _ _ _ (p := 0x05) (m := 0xFF) rfl rfl rfl (by decide)

theorem reqWriteReg06 (unit : Byte) (address value : Word16) : Statement (.reqWriteReg06 unit address value) :=
  accepts_request _ _ _ _ (p := 0x06) (m := 0xFF) rfl rfl rfl (by decide)

theorem reqWriteMulti10 (unit : Byte) (start : Word16) (values : List Word16) : Statement (.reqWriteMulti10 unit start values) :=
  accepts_request _ _ _ _ (p := 0x10) (m := 0xFF) rfl rfl rfl (by decide)

theorem rspBits01 (unit : Byte) (bitfield : List Byte) (crc : Word16) : Statement (.rspBits01 unit bitfield crc) :=
  accepts_response _ _ _ _ _ (p := 0x01) (m := 0xFF) rfl rfl rfl (by decide)

theorem rspBits02 (unit : Byte) (bitfield : List Byte) (crc : Word16) : Statement (.rspBits02 unit bitfield crc) :=
  accepts_response _ _ _ _ _ (p := 0x02) (m := 0xFF) rfl rfl rfl (by decide)

theorem rspWords03 (unit : Byte) (words : List Word16) (crc : Word16) : Statement (.rspWords03 unit words crc) :=
  accepts_response _ _ _ _ _ (p := 0x03) (m := 0xFF) rfl rfl rfl (by decide)

theorem rspEcho05 (unit : Byte) (address coilWord crc : Word16) : Statement (.rspEcho05 unit address coilWord crc) :=
  accepts_response _ _ _ _ _ (p := 0x05) (m := 0xFF) rfl rfl rfl (by decide)

theorem rspEcho06 (unit : Byte) (address value crc : Word16) : Statement (.rspEcho06 unit address value crc) :=
  accepts_response _ _ _ _ _ (p := 0x06) (m := 0xFF) rfl rfl rfl (by decide)

theorem rspWriteMulti10 (unit : Byte) (payload : List Byte) (crc : Word16) : Statement (.rspWriteMulti10 unit payload crc) :=
  accepts_response _ _ _ _ _ (p := 0x10) (m := 0xFF) rfl rfl rfl (by decide)

theorem rspException (unit : Byte) (function : BitVec 7) (payload : List Byte) (crc : Word16) :
    Statement (.rspException unit function payload crc) :=
  accepts_response _ _ _ _ _ (p := 0x80) (m := 0x80) rfl rfl rfl (exceptionFunction_bit7 function)

end Sys2Proof.Laws.TableMatch
end

