-- ==== Sys2Proof/Laws/Step.lean ====
section
/-! SUPPORT. What one step can do, said once: a statement about every step is four cases (`Moves`), not twenty-four. -/

namespace Sys2Proof.Machine

/-- Everything one instruction can do to the state when it answers a next state. -/
inductive Moves (s : State) : State → Prop where
  /-- A result is delivered and nothing else happens: the pure operations, a refusal, an illegal selector. -/
  | delivers (r : Result) (hr : GoodResult r) (h : s.exchange = none) : Moves s (deliver r s)
  /-- A whole round trip. -/
  | transacts (p : Purpose) (fn : Byte) (payload : List Byte) (h : s.exchange = none) : Moves s (transact p fn payload s)
  /-- A request row. -/
  | sends (p : Purpose) (unit fn : Byte) (payload : List Byte) (h : s.exchange = none) : Moves s (sendRow p unit fn payload s)
  /-- Bytes arrive for the request that is out. -/
  | receives (p : Purpose) (bytes : List Byte) (hb : bytes.length ≤ rxMax) (h : s.exchange = some p) : Moves s (receive p bytes s)
  /-- Bytes arrive with no request out, or nothing was presented. -/
  | ignores (h : s.exchange = none) : Moves s s

/-- A frame that passes the validator is a good frame (41_frame_codec.md R110). -/
theorem goodResult_validationResult (frame : List Byte) : GoodResult (validationResult frame) := by
  unfold validationResult
  split
  · rename_i h
    exact validate_eq_none h
  · trivial

/-- A frame the block builds is a good frame. -/
theorem goodFrame_requestFrame (unit fn : Byte) (payload : List Byte) : GoodFrame (requestFrame unit fn payload) :=
  ⟨by rw [requestFrame_length]; simp only [minFrame]; omega, trailerRight_requestFrame _ _ _⟩

theorem typedTransact_moves {s : State} (p : Purpose) (fn : Byte) (payload : List Byte) (h : s.exchange = none) :
    Moves s (typedTransact p fn payload s) := by
  cases hf : fitsTx s payload with
  | true => rw [typedTransact_fits p fn hf]; exact .transacts p fn payload h
  | false => rw [typedTransact_refused p fn hf]; exact .delivers _ trivial h

theorem receiveRow_moves {frame : List Byte} {s t : State} (h : receiveRow frame s = .next t) : Moves s t := by
  rcases receiveRow_eq_next h with ⟨he, rfl⟩ | ⟨p, he, rfl⟩
  · exact .ignores he
  · exact .receives p _ (by rw [List.length_take]; exact Nat.min_le_left _ _) he

/-- What an instruction of the host or a request row does, from what it does when idle. -/
theorem whenIdle_moves {s t : State} {run : State → State} (h : whenIdle s run = .next t)
    (hrun : s.exchange = none → Moves s (run s)) : Moves s t := by
  obtain ⟨he, rfl⟩ := whenIdle_eq_next h
  exact hrun he

/-- Every instruction that answers a next state made one of the moves. -/
theorem exec_moves {i : Instr} {s t : State} (h : exec i s = .next t) : Moves s t := by
  cases i with
  | crc16 bytes =>
    simp only [exec, execCrc16] at h
    exact whenIdle_moves h fun he => .delivers (.ok (.crcOut (CrcGen.run bytes).crc)) trivial he
  | buildRequest unit fn payload =>
    simp only [exec, execBuildRequest] at h
    refine whenIdle_moves h fun he => ?_
    split
    · exact .delivers _ (goodFrame_requestFrame unit fn payload) he
    · exact .delivers _ trivial he
  | validateResponse frame expected =>
    simp only [exec, execValidateResponse] at h
    refine whenIdle_moves h fun he => ?_
    have hd : deliver (validationResult frame) (if minFrame ≤ frame.length then runCrc (frameBody frame) s else s) =
        deliver (validationResult frame) s := by split <;> rfl
    rw [hd]
    exact .delivers _ (goodResult_validationResult frame) he
  | sendRequest fn payload => exact whenIdle_moves h fun he => .transacts _ fn payload he
  | readStatus r => exact whenIdle_moves h fun he => typedTransact_moves _ _ _ he
  | readAlarms r => exact whenIdle_moves h fun he => typedTransact_moves _ _ _ he
  | readSensors r => exact whenIdle_moves h fun he => typedTransact_moves _ _ _ he
  | readConfiguration r => exact whenIdle_moves h fun he => typedTransact_moves _ _ _ he
  | writeSingleCoil a v => exact whenIdle_moves h fun he => typedTransact_moves _ _ _ he
  | writeSingleRegister a v => exact whenIdle_moves h fun he => typedTransact_moves _ _ _ he
  | writeMultipleRegisters a vs =>
    simp only [exec, execWriteMultipleRegisters] at h
    refine whenIdle_moves h fun he => ?_
    split
    · exact typedTransact_moves _ _ _ he
    · exact .delivers _ trivial he
  | reqRead01 u a q => exact whenIdle_moves h fun he => .sends _ u _ _ he
  | reqRead02 u a q => exact whenIdle_moves h fun he => .sends _ u _ _ he
  | reqRead03 u a q => exact whenIdle_moves h fun he => .sends _ u _ _ he
  | reqWriteCoil05 u a v => exact whenIdle_moves h fun he => .sends _ u _ _ he
  | reqWriteReg06 u a v => exact whenIdle_moves h fun he => .sends _ u _ _ he
  | reqWriteMulti10 u a vs =>
    simp only [exec, execReqWriteMulti10] at h
    refine whenIdle_moves h fun he => ?_
    split
    · exact .sends _ u _ _ he
    · exact .delivers _ trivial he
  | rspBits01 u b c => exact receiveRow_moves h
  | rspBits02 u b c => exact receiveRow_moves h
  | rspWords03 u ws c => exact receiveRow_moves h
  | rspEcho05 u a v c => exact receiveRow_moves h
  | rspEcho06 u a v c => exact receiveRow_moves h
  | rspWriteMulti10 u p c => exact receiveRow_moves h
  | rspException u f p c => exact receiveRow_moves h

/-- So does every presented item that answers a next state. -/
theorem runPresented_moves {p : Presented} {s t : State} (h : runPresented p s = .next t) : Moves s t := by
  unfold runPresented at h
  split at h
  · exact exec_moves h
  · unfold runRejected at h
    split at h
    · exact whenIdle_moves h fun he => .delivers _ trivial he
    · cases h
    · cases h
    · split at h
      · exact receiveRow_moves h
      · cases h
      · cases h

/-- What one step can do: nothing where nothing is presented, else one move with the item taken off. -/
theorem step_cases {s t : State} (h : step s = .next t) :
    (s.presented = [] ∧ t = s) ∨ ∃ p rest, s.presented = p :: rest ∧ Moves { s with presented := rest } t := by
  unfold step takePresented at h
  split at h
  · rename_i hp
    split at hp
    · rename_i hn
      injection h with h
      exact .inl ⟨hn, h.symm⟩
    · cases hp
  · rename_i p s' hp
    split at hp
    · cases hp
    · rename_i p' rest hs
      injection hp with hp
      injection hp with hp1 hp2
      subst hp1 hp2
      exact .inr ⟨_, rest, hs, runPresented_moves h⟩

end Sys2Proof.Machine
end

