-- ==== Sys2Proof/Machine/Text.lean ====
section
/-! DEFINITION. How an operation of the host is written: `MNEMONIC operand, operand`, byte sequences as two-digit hexadecimal in brackets (30_encoding.md R68, R69). -/

namespace Sys2Proof.Machine

/-- A hexadecimal digit. -/
def hexDigit (n : Nat) : Char := if n < 10 then Char.ofNat (48 + n) else Char.ofNat (55 + n)

/-- `n` hexadecimal digits, most significant first. -/
def hexDigits : Nat → Nat → List Char
  | 0, _ => []
  | n + 1, v => hexDigits n (v / 16) ++ [hexDigit (v % 16)]

/-- A byte operand, `0x..` (00_scope.md R6). -/
def byteText (b : Byte) : List Char := '0' :: 'x' :: hexDigits 2 b.toNat

/-- A 16-bit operand, `0x....` (00_scope.md R6). -/
def wordText (v : Word16) : List Char := '0' :: 'x' :: hexDigits 4 v.toNat

/-- Items with a separator between them. -/
def separated (sep : List Char) : List (List Char) → List Char
  | [] => []
  | [x] => x
  | x :: y :: rest => x ++ sep ++ separated sep (y :: rest)

/-- A byte sequence in brackets (30_encoding.md R68). -/
def bytesText (bs : List Byte) : List Char :=
  '[' :: separated [' '] (bs.map fun b => hexDigits 2 b.toNat) ++ [']']

/-- A sequence of words in brackets, as the example of 43_write_ops.md R154 writes it. -/
def wordsText (vs : List Word16) : List Char := '[' :: separated [',', ' '] (vs.map wordText) ++ [']']

/-- The operands of a read; what is left out is not written (30_encoding.md R69). -/
def readOperandsText : ReadOperands → List (List Char)
  | .defaults => []
  | .start a => [wordText a]
  | .both a q => [wordText a, q.toNat.repr.toList]

/-- The operands of an operation of the host, in the order of 30_encoding.md R68; a wire frame is no operation and has no line. -/
def operandsText : Instr → Option (List (List Char))
  | .crc16 bytes => some [bytesText bytes]
  | .buildRequest unit fn payload => some [byteText unit, byteText fn, bytesText payload]
  | .validateResponse frame none => some [bytesText frame]
  | .validateResponse frame (some expected) => some [bytesText frame, byteText expected]
  | .sendRequest fn payload => some [byteText fn, bytesText payload]
  | .readStatus r => some (readOperandsText r)
  | .readAlarms r => some (readOperandsText r)
  | .readSensors r => some (readOperandsText r)
  | .readConfiguration r => some (readOperandsText r)
  | .writeSingleCoil a v => some [wordText a, if v then ['t', 'r', 'u', 'e'] else ['f', 'a', 'l', 's', 'e']]
  | .writeSingleRegister a v => some [wordText a, wordText v]
  | .writeMultipleRegisters a vs => some [wordText a, wordsText vs]
  | .reqRead01 _ _ _ => none
  | .reqRead02 _ _ _ => none
  | .reqRead03 _ _ _ => none
  | .reqWriteCoil05 _ _ _ => none
  | .reqWriteReg06 _ _ _ => none
  | .reqWriteMulti10 _ _ _ => none
  | .rspBits01 _ _ _ => none
  | .rspBits02 _ _ _ => none
  | .rspWords03 _ _ _ => none
  | .rspEcho05 _ _ _ _ => none
  | .rspEcho06 _ _ _ _ => none
  | .rspWriteMulti10 _ _ _ => none
  | .rspException _ _ _ _ => none

/-- The line of an operation, such as WRITE_SINGLE_COIL 0x0003, true (30_encoding.md R68). -/
def operationLine (i : Instr) : Option (List Char) :=
  (operandsText i).map fun ops =>
    if ops.isEmpty then i.row.mnemonic.toList else i.row.mnemonic.toList ++ [' '] ++ separated [',', ' '] ops

end Sys2Proof.Machine
end

