-- ==== Sys2Proof/Tests/Slice0.lean ====
section
/-! SUPPORT. Tests of the model: expected results are transcribed from spec/95_test_vectors.md (ids S, V) and from the encodings of 30_encoding.md; the
witness theorems show that the hypotheses of each statement can be met together. -/

open Sys2Proof Sys2Proof.Machine

namespace Sys2Proof.Tests

set_option maxRecDepth 20000

/-! ### Small states and readings -/

/-- Reset with scripted link answers. -/
def scripted (o : OpenAnswer) (w : WriteAnswer) (r : ReadAnswer) : State :=
  { State.reset with link := { State.reset.link with opens := [o], writes := [w], reads := [r] } }

/-- A link that connects, takes the frame and answers with these bytes. -/
def answering (bytes : List Byte) : State := scripted .ok .ok (.bytes bytes)

/-- Reset with a request in flight. -/
def waiting (p : Purpose) (request : List Byte) : State :=
  { State.reset with conn := .opened, exchange := some p, txbuf := some request,
                     link := { State.reset.link with log := [.opened, .wrote request] } }

/-- Reset with one item presented. -/
def presenting (p : Presented) : State := { State.reset with presented := [p] }

/-- The result an outcome leaves. -/
def resultOf : Out → Option Result
  | .next t => t.result
  | .fault _ => none
  | .refused _ => none

/-- The record of the link an outcome leaves. -/
def linkOf : Out → List LinkEvent
  | .next t => t.link.log
  | .fault _ => []
  | .refused _ => []

/-- The addresses of a bit result that read 1. -/
def onesOf : Out → Option (List Nat)
  | .next t =>
    match t.valueSet with
    | some (.bits entries) => some ((entries.filter Prod.snd).map Prod.fst)
    | _ => none
  | .fault _ => none
  | .refused _ => none

/-- The entries of a word result. -/
def wordsOf : Out → List (Nat × Scaled)
  | .next t =>
    match t.valueSet with
    | some (.words entries) => entries
    | _ => []
  | .fault _ => []
  | .refused _ => []

/-- A success of a read of words. -/
def wordsResult (entries : List (Nat × Scaled)) : Option Result := some (.ok (.valueSet (.words entries)))

/-- A scaled value. -/
def sc (tag : Transform) (num : Int) (den : Nat) : Scaled := { tag := tag, num := num, den := den }

/-- The 77-byte response of V53. -/
def v53 : List Byte :=
  [0x01, 0x03, 0x48, 0xFF, 0xF6, 0x00, 0xFA, 0x09, 0xC4, 0x11, 0xC6, 0x27, 0x10, 0x03, 0xF5, 0x80, 0x00] ++
  [0x00, 0x07, 0x00, 0x08, 0x00, 0x09, 0x00, 0x0A, 0x00, 0x0B, 0x00, 0x0C, 0x00, 0x0D, 0x00, 0x0E, 0x00, 0x0F] ++
  [0x00, 0x10, 0x00, 0x11, 0x00, 0x12, 0x00, 0x13, 0x00, 0x14, 0x00, 0x15, 0x00, 0x16, 0x00, 0x17, 0x00, 0x18] ++
  [0x00, 0x19, 0x00, 0x1A, 0x00, 0x1B, 0x00, 0x1C, 0x00, 0x1D, 0x00, 0x1E, 0x00, 0x1F, 0x00, 0x20, 0x00, 0x21] ++
  [0x00, 0x22, 0xFF, 0x00, 0xC9, 0xBB]

/-- The 47-byte response of V54. -/
def v54 : List Byte :=
  [0x01, 0x03, 0x2A, 0x00, 0xD7, 0xFF, 0x38, 0x00, 0x00, 0x7F, 0xFF, 0x80, 0x00, 0xFF, 0xFF, 0x01, 0x2C, 0x00, 0x00] ++
  [0xFF, 0xFF, 0x00, 0x09, 0x00, 0x0A, 0x00, 0x0B, 0x00, 0x0C, 0x00, 0x0D, 0x00, 0x03, 0x00, 0x0F, 0x00, 0x10] ++
  [0x00, 0x11, 0x00, 0x37, 0x00, 0x01, 0x12, 0x34, 0xD0, 0x4B]

/-! ### WellFormed refuses: one ill-formed term for each check, and the term at the bound -/

theorem test_wf_reqWriteMulti10_refuses_128 : (Instr.reqWriteMulti10 1 0 (List.replicate 128 0)).wellFormed = false := by decide
theorem test_wf_reqWriteMulti10_takes_127 : (Instr.reqWriteMulti10 1 0 (List.replicate 127 0)).wellFormed = true := by decide
theorem test_wf_rspBits01_refuses_257 : (Instr.rspBits01 1 (List.replicate 252 0) 0).wellFormed = false := by decide
theorem test_wf_rspBits01_takes_256 : (Instr.rspBits01 1 (List.replicate 251 0) 0).wellFormed = true := by decide
theorem test_wf_rspBits02_refuses_257 : (Instr.rspBits02 1 (List.replicate 252 0) 0).wellFormed = false := by decide
theorem test_wf_rspWords03_refuses_257 : (Instr.rspWords03 1 (List.replicate 126 0) 0).wellFormed = false := by decide
theorem test_wf_rspWords03_takes_255 : (Instr.rspWords03 1 (List.replicate 125 0) 0).wellFormed = true := by decide
theorem test_wf_rspWriteMulti10_refuses_short : (Instr.rspWriteMulti10 1 [0] 0).wellFormed = false := by decide
theorem test_wf_rspWriteMulti10_refuses_257 : (Instr.rspWriteMulti10 1 (List.replicate 253 0) 0).wellFormed = false := by decide
theorem test_wf_rspException_refuses_257 : (Instr.rspException 1 3 (List.replicate 253 0) 0).wellFormed = false := by decide

/-! ### Decoding: a word written out from 30_encoding.md for every constructor -/

theorem test_decode_crc16 : decode (.cmd 0b0000#4 [0x01, 0x03]) = .instr (.crc16 [0x01, 0x03]) := by decide
theorem test_decode_buildRequest : decode (.cmd 0b0001#4 [0x01, 0x83, 0x02]) = .instr (.buildRequest 0x01 0x83 [0x02]) := by decide
theorem test_decode_validateResponse :
    decode (.cmd 0b0010#4 [0, 0x01, 0x03, 0x40, 0x21]) = .instr (.validateResponse [0x01, 0x03, 0x40, 0x21] none) := by decide
theorem test_decode_validateResponse_expected :
    decode (.cmd 0b0010#4 [1, 0x09, 0x01, 0x03]) = .instr (.validateResponse [0x01, 0x03] (some 0x09)) := by decide
theorem test_decode_sendRequest :
    decode (.cmd 0b0011#4 [0x03, 0x00, 0x00, 0x00, 0x0A]) = .instr (.sendRequest 0x03 [0x00, 0x00, 0x00, 0x0A]) := by decide
theorem test_decode_readStatus : decode (.cmd 0b0100#4 []) = .instr (.readStatus .defaults) := by decide
theorem test_decode_readAlarms : decode (.cmd 0b0101#4 [0x12, 0x34]) = .instr (.readAlarms (.start 0x1234)) := by decide
theorem test_decode_readSensors : decode (.cmd 0b0110#4 [0x12, 0x34, 0x00, 0x03]) = .instr (.readSensors (.both 0x1234 3)) := by decide
theorem test_decode_readConfiguration :
    decode (.cmd 0b0111#4 [0x00, 0x0E, 0x00, 0x01]) = .instr (.readConfiguration (.both 0x000E 1)) := by decide
theorem test_decode_writeSingleCoil : decode (.cmd 0b1000#4 [0x00, 0x03, 1]) = .instr (.writeSingleCoil 0x0003 true) := by decide
theorem test_decode_writeSingleRegister :
    decode (.cmd 0b1001#4 [0x00, 0x01, 0x00, 0xFA]) = .instr (.writeSingleRegister 0x0001 0x00FA) := by decide
theorem test_decode_writeMultipleRegisters :
    decode (.cmd 0b1010#4 [0x00, 0x06, 0x00, 0xC8, 0x01, 0x2C]) = .instr (.writeMultipleRegisters 0x0006 [0x00C8, 0x012C]) := by decide
theorem test_decode_unused_selectors :
    (decode (.cmd 0xB []), decode (.cmd 0xF [1])) = (.rejected (.illegalOperation 0xB), .rejected (.illegalOperation 0xF)) := by decide
theorem test_decode_operands_that_do_not_fit :
    (decode (.cmd 0x9 [0, 1, 0]), decode (.cmd 0x8 [0, 3, 2])) =
      (.rejected (.operandsDoNotFit 0x9), .rejected (.operandsDoNotFit 0x8)) := by decide
theorem test_decode_reqRead01 : -- V30
    decode (.req [0x01, 0x01, 0x00, 0x00, 0x00, 0x0A, 0xBC, 0x0D]) = .instr (.reqRead01 0x01 0x0000 10) := by decide
theorem test_decode_reqRead02 : -- V31
    decode (.req [0x01, 0x02, 0x00, 0x00, 0x00, 0x20, 0x79, 0xD2]) = .instr (.reqRead02 0x01 0x0000 32) := by decide
theorem test_decode_reqRead03 : -- V34
    decode (.req [0x01, 0x03, 0x00, 0x0E, 0x00, 0x01, 0xE5, 0xC9]) = .instr (.reqRead03 0x01 0x000E 1) := by decide
theorem test_decode_reqWriteCoil05 : -- V71
    decode (.req [0x01, 0x05, 0x00, 0x03, 0x00, 0x00, 0x3D, 0xCA]) = .instr (.reqWriteCoil05 0x01 0x0003 false) := by decide
theorem test_decode_reqWriteReg06 : -- V76
    decode (.req [0x01, 0x06, 0x00, 0x00, 0xFF, 0xF6, 0x48, 0x7C]) = .instr (.reqWriteReg06 0x01 0x0000 0xFFF6) := by decide
theorem test_decode_reqWriteMulti10 : -- V77
    decode (.req [0x01, 0x10, 0x00, 0x06, 0x00, 0x02, 0x04, 0x00, 0xC8, 0x01, 0x2C, 0xF2, 0x36]) =
      .instr (.reqWriteMulti10 0x01 0x0006 [0x00C8, 0x012C]) := by decide
theorem test_decode_coil_word_FFFF_is_no_request : -- R55 against the frame of V72
    decode (.req [0x01, 0x05, 0x00, 0x03, 0xFF, 0xFF, 0x3C, 0x7A]) = .rejected .noRequestRow := by decide
theorem test_decode_rspBits01 : -- V41
    decode (.rsp [0x01, 0x01, 0x02, 0x05, 0x02, 0x3B, 0x6D]) = .instr (.rspBits01 0x01 [0x05, 0x02] 0x6D3B) := by decide
theorem test_decode_rspBits02 : -- V45
    decode (.rsp [0x01, 0x02, 0x04, 0x01, 0x00, 0x80, 0x00, 0x9B, 0xDE]) =
      .instr (.rspBits02 0x01 [0x01, 0x00, 0x80, 0x00] 0xDE9B) := by decide
theorem test_decode_rspWords03 : -- V50
    decode (.rsp [0x01, 0x03, 0x04, 0xFF, 0xF6, 0x00, 0xFA, 0xAA, 0x56]) = .instr (.rspWords03 0x01 [0xFFF6, 0x00FA] 0x56AA) := by decide
theorem test_decode_rspEcho05 : -- V72
    decode (.rsp [0x01, 0x05, 0x00, 0x03, 0xFF, 0xFF, 0x3C, 0x7A]) = .instr (.rspEcho05 0x01 0x0003 0xFFFF 0x7A3C) := by decide
theorem test_decode_rspEcho06 : -- V75
    decode (.rsp [0x01, 0x06, 0x00, 0x01, 0x00, 0xFB, 0x99, 0x89]) = .instr (.rspEcho06 0x01 0x0001 0x00FB 0x8999) := by decide
theorem test_decode_rspWriteMulti10 : -- V79
    decode (.rsp [0x01, 0x10, 0x00, 0x06, 0x80, 0x1F]) = .instr (.rspWriteMulti10 0x01 [0x00, 0x06] 0x1F80) := by decide
theorem test_decode_rspException : -- V25, the shortest
    decode (.rsp [0x01, 0x83, 0x41, 0x81]) = .instr (.rspException 0x01 0x03 [] 0x8141) := by decide
theorem test_decode_no_response_row : -- V43: the byte count is not the number of bytes
    decode (.rsp [0x01, 0x01, 0x02, 0x05, 0x91, 0x7B]) = .rejected .noResponseRow := by decide

/-! ### The words of the opcode table (log 15) -/

theorem test_table_word_crc16 : decodeTableWord 8 0x0 = some (.crc16 []) := by decide
theorem test_table_word_writeSingleRegister : decodeTableWord 8 0x9 = some (.writeSingleRegister 0 0) := by decide
theorem test_table_word_request : decodeTableWord 16 0x03 = some (.reqRead03 0 0 0) := by decide
theorem test_table_word_exception : decodeTableWord 8 0x80 = some (.rspException 0 0 [0] 0) := by decide
theorem test_fetch_word_is_the_next_item : -- the first step after reset runs it
    resultOf (step (State.reset.withFetchWord 8 0x0)) = some (.ok (.crcOut 0xFFFF)) := by decide

/-! ### The operations, one step each -/

theorem test_crc16_golden : -- S2
    resultOf (exec (.crc16 [0x01, 0x03, 0x00, 0x00, 0x00, 0x0A]) State.reset) = some (.ok (.crcOut 0xCDC5)) := by decide
theorem test_crc16_nine_digits : -- V5
    resultOf (exec (.crc16 [0x31, 0x32, 0x33, 0x34, 0x35, 0x36, 0x37, 0x38, 0x39]) State.reset) = some (.ok (.crcOut 0x4B37)) := by decide
theorem test_buildRequest_bit7 : -- V16
    resultOf (exec (.buildRequest 0x01 0x83 [0x02]) State.reset) = some (.ok (.outFrame [0x01, 0x83, 0x02, 0xC0, 0xF1])) := by decide
theorem test_buildRequest_empty_payload : -- V14
    resultOf (exec (.buildRequest 0xFF 0x7F []) State.reset) = some (.ok (.outFrame [0xFF, 0x7F, 0x01, 0xA0])) := by decide
theorem test_validateResponse_code_is_third_byte : -- V25
    resultOf (exec (.validateResponse [0x01, 0x83, 0x41, 0x81] none) State.reset) =
      some (.failed (.unknownModbusException 0x41)) := by decide
theorem test_validateResponse_crc_before_exception : -- V23
    resultOf (exec (.validateResponse [0x01, 0x83, 0x04, 0xFF, 0xF6, 0x00, 0xFA, 0xAA, 0x56] (some 1)) State.reset) =
      some (.failed .crcMismatch) := by decide
theorem test_sendRequest_exception : -- V85, V88
    (fun o => (resultOf o, linkOf o)) (exec (.sendRequest 0x03 [0x00, 0x00, 0x00, 0x0A]) (answering [0x01, 0x83, 0x02, 0xC0, 0xF1])) =
      (some (.failed (.modbusException .illegalDataAddress)),
        [.opened, .wrote [0x01, 0x03, 0x00, 0x00, 0x00, 0x0A, 0xC5, 0xCD], .read [0x01, 0x83, 0x02, 0xC0, 0xF1], .closed]) := by decide
theorem test_sendRequest_timeout : -- V87
    resultOf (exec (.sendRequest 0x03 []) (scripted .ok .ok .timeout)) = some (.failed .emptyResponse) := by decide
theorem test_readStatus_bits : -- V41
    onesOf (exec (.readStatus .defaults) (answering [0x01, 0x01, 0x02, 0x05, 0x02, 0x3B, 0x6D])) = some [0, 2, 9] := by decide
theorem test_readStatus_keys_do_not_wrap : -- V47
    onesOf (exec (.readStatus (.both 0xFFFE 3)) (answering [0x01, 0x01, 0x01, 0x07, 0x10, 0x4A])) = some [65534, 65535, 65536] := by decide
theorem test_readAlarms_bits : -- V45
    onesOf (exec (.readAlarms .defaults) (answering [0x01, 0x02, 0x04, 0x01, 0x00, 0x80, 0x00, 0x9B, 0xDE])) = some [0, 23] := by decide
theorem test_readSensors_three : -- V51
    resultOf (exec (.readSensors (.both 0x0000 3)) (answering [0x01, 0x03, 0x06, 0xFF, 0xF6, 0x00, 0xFA, 0x09, 0xC4, 0xDA, 0x9D])) =
      wordsResult [(0, sc .s10 (-10) 10), (1, sc .s10 250 10), (2, sc .u100 2500 100)] := by decide

set_option maxRecDepth 200000 in
theorem test_readSensors_defaults : -- V53, the eight addresses with a transform of their own and the first without
    (fun es : List (Nat × Scaled) => (es.length, es.take 8, es[35]?)) (wordsOf (exec (.readSensors .defaults) (answering v53))) =
      (36, [(0, sc .s10 (-10) 10), (1, sc .s10 250 10), (2, sc .u100 2500 100), (3, sc .u100 4550 100), (4, sc .u100 10000 100),
        (5, sc .u10 1013 10), (6, sc .s10 (-32768) 10), (7, sc .ident 7 1)], some (0x23, sc .u65280 65280 65280)) := by decide
theorem test_readConfiguration_defaults : -- V54
    resultOf (exec (.readConfiguration .defaults) (answering v54)) =
      wordsResult [(0, sc .s10 215 10), (1, sc .s10 (-200) 10), (2, sc .s10 0 10), (3, sc .s10 32767 10), (4, sc .s10 (-32768) 10),
        (5, sc .s10 (-1) 10), (6, sc .u10 300 10), (7, sc .u10 0 10), (8, sc .u10 65535 10), (9, sc .ident 9 1),
        (10, sc .ident 10 1), (11, sc .ident 11 1), (12, sc .ident 12 1), (13, sc .ident 13 1), (14, sc .baud 38400 1),
        (15, sc .ident 15 1), (16, sc .ident 16 1), (17, sc .ident 17 1), (18, sc .u10 55 10), (19, sc .u10 1 10),
        (20, sc .ident 4660 1)] := by decide
theorem test_readConfiguration_byte_count_too_small : -- V60's shape under R131 (c)
    resultOf (exec (.readConfiguration (.both 0x0000 3)) (answering [0x01, 0x03, 0x04, 0x00, 0x01, 0x00, 0x02, 0x2A, 0x32])) =
      some (.failed .decodeUndefined) := by decide
theorem test_writeSingleCoil_echo : -- V70
    resultOf (exec (.writeSingleCoil 0x0003 true) (answering [0x01, 0x05, 0x00, 0x03, 0xFF, 0x00, 0x7C, 0x3A])) =
      some (.ok .done) := by decide
theorem test_writeSingleCoil_longer_echo : -- V72
    resultOf (exec (.writeSingleCoil 0x0003 true) (answering [0x01, 0x05, 0x00, 0x03, 0xFF, 0x00, 0x7C, 0x3A, 0x00, 0x00])) =
      some (.failed .writeVerificationFailed) := by decide
theorem test_writeSingleRegister_sends_the_raw_word : -- V76
    linkOf (exec (.writeSingleRegister 0x0000 0xFFF6) (scripted .ok .ok .peerClosed)) =
      [.opened, .wrote [0x01, 0x06, 0x00, 0x00, 0xFF, 0xF6, 0x48, 0x7C], .read [], .closed] := by decide
theorem test_writeSingleRegister_other_value : -- V75
    resultOf (exec (.writeSingleRegister 0x0001 0x00FA) (answering [0x01, 0x06, 0x00, 0x01, 0x00, 0xFB, 0x99, 0x89])) =
      some (.failed .writeVerificationFailed) := by decide
theorem test_writeMultipleRegisters_prefix : -- V77
    resultOf (exec (.writeMultipleRegisters 0x0006 [0x00C8, 0x012C]) (answering [0x01, 0x10, 0x00, 0x06, 0x00, 0x02, 0xA1, 0xC9])) =
      some (.ok .done) := by decide
theorem test_writeMultipleRegisters_short_response : -- V79
    resultOf (exec (.writeMultipleRegisters 0x0006 [0x00C8, 0x012C]) (answering [0x01, 0x10, 0x00, 0x2D, 0xC0])) =
      some (.failed .writeVerificationFailed) := by decide

/-! ### The wire rows, one step each -/

theorem test_reqRead01_sends : -- V15
    linkOf (exec (.reqRead01 0x02 0x0010 9) (answering [])) =
      [.opened, .wrote [0x02, 0x01, 0x00, 0x10, 0x00, 0x09, 0xFD, 0xFA]] := by decide
theorem test_reqRead02_sends : -- V31
    linkOf (exec (.reqRead02 0x01 0x0000 32) (answering [])) =
      [.opened, .wrote [0x01, 0x02, 0x00, 0x00, 0x00, 0x20, 0x79, 0xD2]] := by decide
theorem test_reqRead03_sends : -- V34
    linkOf (exec (.reqRead03 0x01 0xFFFF 2) (answering [])) =
      [.opened, .wrote [0x01, 0x03, 0xFF, 0xFF, 0x00, 0x02, 0xC4, 0x2F]] := by decide
theorem test_reqWriteCoil05_sends : -- V71
    linkOf (exec (.reqWriteCoil05 0x01 0x0003 false) (answering [])) =
      [.opened, .wrote [0x01, 0x05, 0x00, 0x03, 0x00, 0x00, 0x3D, 0xCA]] := by decide
theorem test_reqWriteReg06_sends : -- V75
    linkOf (exec (.reqWriteReg06 0x01 0x0001 0x00FA) (answering [])) =
      [.opened, .wrote [0x01, 0x06, 0x00, 0x01, 0x00, 0xFA, 0x58, 0x49]] := by decide
theorem test_reqWriteMulti10_sends_none : -- V81
    linkOf (exec (.reqWriteMulti10 0x01 0x0000 []) (answering [])) =
      [.opened, .wrote [0x01, 0x10, 0x00, 0x00, 0x00, 0x00, 0x00, 0x09, 0x50]] := by decide
theorem test_rspBits01_answers : -- V40
    onesOf (exec (.rspBits01 0x01 [0x05] 0x8B91) (waiting (.bits 0 8) [])) = some [0, 2] := by decide
theorem test_rspBits02_answers : -- V45
    onesOf (exec (.rspBits02 0x01 [0x01, 0x00, 0x80, 0x00] 0xDE9B) (waiting (.bits 0 32) [])) = some [0, 23] := by decide
theorem test_rspWords03_answers : -- V50
    resultOf (exec (.rspWords03 0x01 [0xFFF6, 0x00FA] 0x56AA) (waiting (.words .sensor 0 2) [])) =
      wordsResult [(0, sc .s10 (-10) 10), (1, sc .s10 250 10)] := by decide
theorem test_rspEcho05_corrupted : -- V73
    resultOf (exec (.rspEcho05 0x01 0x0003 0xFF00 0x3B7C) (waiting .echo [0x01, 0x05, 0x00, 0x03, 0xFF, 0x00, 0x7C, 0x3A])) =
      some (.failed .crcMismatch) := by decide
theorem test_rspEcho06_answers : -- V75
    resultOf (exec (.rspEcho06 0x01 0x0001 0x00FA 0x4958) (waiting .echo [0x01, 0x06, 0x00, 0x01, 0x00, 0xFA, 0x58, 0x49])) =
      some (.ok .done) := by decide
theorem test_rspWriteMulti10_whole_request_echoed : -- V80
    resultOf (exec (.rspWriteMulti10 0x01 [0x00, 0x06, 0x00, 0x02, 0x04, 0x00, 0xC8, 0x01, 0x2C] 0x36F2)
      (waiting .echoPrefix [0x01, 0x10, 0x00, 0x06, 0x00, 0x02, 0x04, 0x00, 0xC8, 0x01, 0x2C, 0xF2, 0x36])) = some (.ok .done) := by decide
theorem test_rspException_to_a_write : -- V74
    resultOf (exec (.rspException 0x01 0x05 [0x03] 0x9102) (waiting .echo [0x01, 0x05, 0x00, 0x03, 0xFF, 0x00, 0x7C, 0x3A])) =
      some (.failed (.modbusException .illegalDataValue)) := by decide

/-! ### The written form of an operation (30_encoding.md R68, R69) -/

theorem test_text_writeSingleCoil :
    operationLine (.writeSingleCoil 0x0003 true) = some "WRITE_SINGLE_COIL 0x0003, true".toList := by decide
theorem test_text_readSensors : operationLine (.readSensors (.both 0x0000 3)) = some "READ_SENSORS 0x0000, 3".toList := by decide

/-! ### Witnesses: concrete states and operands that meet the hypotheses of each statement, one per clause at the edge of its range -/

/-- A link that answers with `bytes` lets the whole round trip through. -/
theorem linkAnswers_answering (bytes : List Byte) : LinkAnswers (answering bytes) (bytes.take rxMax) :=
  ⟨rfl, rfl, .bytes bytes, rfl, fun _ h => (nomatch h), rfl⟩

/-- The response of V41. -/
def v41 : List Byte := [0x01, 0x01, 0x02, 0x05, 0x02, 0x3B, 0x6D]

/-- The response of V45. -/
def v45 : List Byte := [0x01, 0x02, 0x04, 0x01, 0x00, 0x80, 0x00, 0x9B, 0xDE]

/-- The response of V50. -/
def v50 : List Byte := [0x01, 0x03, 0x04, 0xFF, 0xF6, 0x00, 0xFA, 0xAA, 0x56]

/-- The response of V56. -/
def v56 : List Byte := [0x01, 0x03, 0x02, 0x00, 0x02, 0x39, 0x85]

/-- The request of V70, which is also its echo. -/
def v70 : List Byte := [0x01, 0x05, 0x00, 0x03, 0xFF, 0x00, 0x7C, 0x3A]

/-- The response of V77. -/
def v77 : List Byte := [0x01, 0x10, 0x00, 0x06, 0x00, 0x02, 0xA1, 0xC9]

theorem witness_Crc16DeliversTheBytewiseFold : State.reset.exchange = none := rfl
theorem witness_CrcBitStepShiftsThenXors :
    (0x0001 : Word16).getLsbD 0 = true ∧ (0xFFFE : Word16).getLsbD 0 = false ∧ (14 < 15) := by decide
theorem witness_CrcOfTheEmptyInputIsFFFF : State.reset.exchange = none := rfl
theorem witness_CrcResidueIsZero : crc16 ([0x01, 0x03] ++ [0x40, 0x21]) = 0 ∧ crc16 ([] ++ [0xFF, 0xFF]) = 0 := by decide
theorem witness_CrcCatchesEverySingleBit :
    ([0x01, 0x03] : List Byte).length = ([0x00, 0x80] : List Byte).length ∧ 0 < 1 ∧ 7 < 8 ∧
      trailerRight [0xFF, 0xFF] = true ∧ 1 < ([0xFF, 0xFF] : List Byte).length := by decide
theorem witness_BuildRequestLaysTheFrameDown_fits :
    ({ State.reset with txCap := some 8 } : State).txCap = some 8 ∧ ([0, 0, 0, 10] : List Byte).length + 4 ≤ 8 := by decide
theorem witness_BuildRequestLaysTheFrameDown_refused :
    ({ State.reset with txCap := some 7 } : State).txCap = some 7 ∧ 7 < ([0, 0, 0, 10] : List Byte).length + 4 := by decide
theorem witness_ValidateResponse_lengths : ([] : List Byte).length = 0 ∧ 1 ≤ ([0x01] : List Byte).length ∧
    ([0x01, 0x83, 0x01] : List Byte).length ≤ 3 := by decide
theorem witness_ValidateResponse_mismatch : -- V10
    (crc16 [0x01, 0x03]).toNat ≠ (0x21 : Byte).toNat + 256 * (0x40 : Byte).toNat := by decide
theorem witness_ValidateResponse_success : -- V18
    (crc16 [0x01, 0x03]).toNat = (0x40 : Byte).toNat + 256 * (0x21 : Byte).toNat ∧ (0x03 : Byte).getLsbD 7 = false := by decide
theorem witness_ValidateResponse_exception : -- V25
    (crc16 [0x01, 0x83]).toNat = (0x41 : Byte).toNat + 256 * (0x81 : Byte).toNat ∧ (0x83 : Byte).getLsbD 7 = true ∧
      ([0x01, 0x83, 0x41, 0x81] : List Byte)[2]? = some 0x41 := by decide
theorem witness_ExceptionCodesFollowTheTable : State.reset.exchange = none ∧
    (0x05 : Byte) ∉ ([0x01, 0x02, 0x03, 0x04, 0x06, 0x0C] : List Byte) := by decide
theorem witness_BuildThenValidateRoundTrip : State.reset.exchange = none ∧ State.reset.txCap = none ∧
    (0x7F : Byte).getLsbD 7 = false ∧ (0x80 : Byte).getLsbD 7 = true := by decide
theorem witness_AnySingleBitFlip_success : State.reset.exchange = none ∧ validate v50 = none ∧ 8 < v50.length ∧ 7 < 8 := by decide
theorem witness_AnySingleBitFlip_exception :
    validate [0x01, 0x83, 0x02, 0xC0, 0xF1] = some (exceptionFailure 0x02) ∧
      validate [0x01, 0x83, 0x05, 0x81, 0x33] = some (exceptionFailure 0x05) := by decide
theorem witness_TwoExtraZeroBytes : trailerRight [0xFF, 0xFF] = true ∧ validate [0x01, 0x03, 0x40, 0x21] = none := by decide

theorem witness_SendRequestIsOneRoundTrip :
    (answering v50).exchange = none ∧ fitsTx (answering v50) [0, 0, 0, 10] = true ∧ LinkAnswers (answering v50) v50 :=
  ⟨rfl, rfl, linkAnswers_answering v50⟩
theorem witness_TheReadIsCutOrEmpty_long :
    let s := answering (List.replicate 257 0)
    s.exchange = none ∧ fitsTx s [] = true ∧ openAnswer s = .ok ∧ writeAnswer s = .ok ∧
      readAnswer s = .bytes (List.replicate 257 0) := ⟨rfl, rfl, rfl, rfl, rfl⟩
theorem witness_TheReadIsCutOrEmpty_timeout :
    openAnswer (scripted .ok .ok .timeout) = .ok ∧ writeAnswer (scripted .ok .ok .timeout) = .ok ∧
      readAnswer (scripted .ok .ok .timeout) = .timeout := ⟨rfl, rfl, rfl⟩
theorem witness_TheReadIsCutOrEmpty_peerClosed :
    openAnswer (scripted .ok .ok .peerClosed) = .ok ∧ writeAnswer (scripted .ok .ok .peerClosed) = .ok ∧
      readAnswer (scripted .ok .ok .peerClosed) = .peerClosed := ⟨rfl, rfl, rfl⟩

/-- The pair of P3, operation 5. -/
def refusedPair : LinkErr := { errno := 111, message := "refused" }

theorem witness_ConnectionFailed_sendRequest :
    let s := scripted (.fail refusedPair) .ok .timeout
    s.exchange = none ∧ fitsTx s [] = true ∧ openAnswer s = .fail refusedPair := ⟨rfl, rfl, rfl⟩
theorem witness_ConnectionFailed_typed : typedRequest (.readStatus .defaults) = some (0x01, twoWordPayload 0 10) ∧
    typedRequest (.writeMultipleRegisters 0 []) = some (0x10, multiplePayload 0 []) := by decide
theorem witness_LinkIoErrors_write :
    let s := scripted .ok (.ioError refusedPair) .timeout
    s.exchange = none ∧ fitsTx s [] = true ∧ openAnswer s = .ok ∧ writeAnswer s = .ioError refusedPair ∧ s.linkIoError = none :=
  ⟨rfl, rfl, rfl, rfl, rfl⟩
theorem witness_LinkIoErrors_read :
    let s := { scripted .ok .ok (.ioError refusedPair) with linkIoError := some .emptyResponse }
    s.exchange = none ∧ fitsTx s [] = true ∧ openAnswer s = .ok ∧ writeAnswer s = .ok ∧
      readAnswer s = .ioError refusedPair ∧ s.linkIoError = some .emptyResponse := ⟨rfl, rfl, rfl, rfl, rfl, rfl⟩
theorem witness_ValidatorFailures : LinkAnswers (answering [0x01]) [0x01] ∧ validate [0x01] = some .frameTooShort :=
  ⟨linkAnswers_answering [0x01], rfl⟩
theorem witness_TxCapRefuses :
    let s := { scripted .ok .ok .timeout with txCap := some 7 }
    s.exchange = none ∧ s.txCap = some 7 ∧ openAnswer s = .ok ∧
      typedRequest (.writeSingleRegister 0 0) = some (0x06, twoWordPayload 0 0) ∧ 7 < (twoWordPayload 0 0).length + 4 :=
  ⟨rfl, rfl, rfl, rfl, by decide⟩

theorem witness_BitReads_status : -- V41, the byte count exactly what is needed
    (answering v41).exchange = none ∧ fitsTx (answering v41) (twoWordPayload 0 10) = true ∧ LinkAnswers (answering v41) v41 ∧
      validate v41 = none ∧ v41[2]? = some 0x02 ∧ 5 ≤ v41.length ∧ 3 + 2 ≤ v41.length - 2 ∧
      ((readQuantity 10 .defaults).toNat + 7) / 8 ≤ 2 :=
  ⟨rfl, rfl, linkAnswers_answering v41, by decide, by decide, by decide, by decide, by decide⟩
theorem witness_BitReads_alarms : -- V45
    (answering v45).exchange = none ∧ fitsTx (answering v45) (twoWordPayload 0 32) = true ∧ LinkAnswers (answering v45) v45 ∧
      validate v45 = none ∧ v45[2]? = some 0x04 ∧ 5 ≤ v45.length ∧ 3 + 4 ≤ v45.length - 2 ∧
      ((readQuantity 32 .defaults).toNat + 7) / 8 ≤ 4 :=
  ⟨rfl, rfl, linkAnswers_answering v45, by decide, by decide, by decide, by decide, by decide⟩
theorem witness_WordReads_sensors : -- V50
    (answering v50).exchange = none ∧ fitsTx (answering v50) (twoWordPayload 0 2) = true ∧ LinkAnswers (answering v50) v50 ∧
      validate v50 = none ∧ v50[2]? = some 0x04 ∧ 5 ≤ v50.length ∧ 3 + 4 ≤ v50.length - 2 ∧
      2 * (readQuantity 36 (.both 0 2)).toNat ≤ 4 :=
  ⟨rfl, rfl, linkAnswers_answering v50, by decide, by decide, by decide, by decide, by decide⟩
theorem witness_WordReads_configuration : -- V56
    (answering v56).exchange = none ∧ fitsTx (answering v56) (twoWordPayload 0x000E 1) = true ∧ LinkAnswers (answering v56) v56 ∧
      validate v56 = none ∧ v56[2]? = some 0x02 ∧ 5 ≤ v56.length ∧ 3 + 2 ≤ v56.length - 2 ∧
      2 * (readQuantity 21 (.both 0x000E 1)).toNat ≤ 2 :=
  ⟨rfl, rfl, linkAnswers_answering v56, by decide, by decide, by decide, by decide, by decide⟩
theorem witness_DecodeIsUndefined_off_shape : -- V43: a validated frame that fails (b)
    let received : List Byte := [0x01, 0x01, 0x02, 0x05, 0x91, 0x7B]
    LinkAnswers (answering received) received ∧ validate received = none ∧ received[2]? = some 0x02 ∧ ¬ 3 + 2 ≤ received.length - 2 :=
  ⟨linkAnswers_answering _, by decide, by decide, by decide⟩
theorem witness_DecodeIsUndefined_on_shape : LinkAnswers (answering v41) v41 ∧ validate v41 = none :=
  ⟨linkAnswers_answering v41, by decide⟩
theorem witness_ReadsCheckNeither : -- V61's reply and the same data under another unit id and function code
    (answering (requestFrame 0x09 0x03 [0x02, 0x00, 0x02])).exchange = none ∧ State.reset.txCap = none ∧
      (0x03 : Byte).getLsbD 7 = false ∧ (0x01 : Byte).getLsbD 7 = false ∧
      LinkAnswers (answering (requestFrame 0x09 0x03 [0x02, 0x00, 0x02])) (requestFrame 0x09 0x03 [0x02, 0x00, 0x02]) ∧
      LinkAnswers (answering (requestFrame 0x01 0x01 [0x02, 0x00, 0x02])) (requestFrame 0x01 0x01 [0x02, 0x00, 0x02]) :=
  ⟨rfl, rfl, by decide, by decide, linkAnswers_answering _, linkAnswers_answering _⟩

theorem witness_SingleWrites_coil :
    (answering v70).exchange = none ∧ LinkAnswers (answering v70) v70 ∧ validate v70 = none ∧
      ∀ cap, ({ answering v70 with txCap := some 8 } : State).txCap = some cap → 8 ≤ cap :=
  ⟨rfl, linkAnswers_answering v70, by decide, fun _ h => by injection h with h; omega⟩
theorem witness_SingleWrites_register : -- V75, the other value
    let received : List Byte := [0x01, 0x06, 0x00, 0x01, 0x00, 0xFB, 0x99, 0x89]
    LinkAnswers (answering received) received ∧ validate received = none :=
  ⟨linkAnswers_answering _, by decide⟩
theorem witness_MultipleWriteComparesSixBytes :
    ([0x00C8, 0x012C] : List Word16).length ≤ 127 ∧ fitsTx (answering v77) (multiplePayload 6 [0x00C8, 0x012C]) = true ∧
      LinkAnswers (answering v77) v77 ∧ validate v77 = none ∧ v77.take 6 = [0x01, 0x10, 0x00, 0x06, 0x00, 0x02] :=
  ⟨by decide, rfl, linkAnswers_answering v77, by decide, by decide⟩
theorem witness_MultipleWriteComparesSixBytes_short : -- V79, no six bytes
    let received : List Byte := [0x01, 0x10, 0x00, 0x2D, 0xC0]
    fitsTx (answering received) (multiplePayload 6 [0x00C8, 0x012C]) = true ∧ LinkAnswers (answering received) received ∧
      validate received = none ∧ received.take 6 ≠ [0x01, 0x10, 0x00, 0x06, 0x00, 0x02] :=
  ⟨rfl, linkAnswers_answering _, by decide, by decide⟩
theorem witness_MultipleWriteRequestLayout : (List.replicate 127 (0 : Word16)).length ≤ 127 := by decide
theorem witness_MoreThan127ValuesAreRefused : State.reset.exchange = none ∧ 128 ≤ (List.replicate 128 (0 : Word16)).length := by decide
theorem witness_WriteSuccess : LinkAnswers (answering v70) v70 ∧
    typedRequest (.writeSingleCoil 3 true) = some (0x05, twoWordPayload 3 0xFF00) ∧
    resultOf (exec (.writeSingleCoil 3 true) (answering v70)) = some (.ok .done) :=
  ⟨linkAnswers_answering v70, by decide, by decide⟩

theorem witness_RequestRowsPutTheirFrameInFlight :
    encode (.reqRead03 1 0 10) = .req [0x01, 0x03, 0x00, 0x00, 0x00, 0x0A, 0xC5, 0xCD] ∧ (Instr.reqRead03 1 0 10).wellFormed = true ∧
      (answering []).exchange = none ∧ (answering []).txCap = none ∧ openAnswer (answering []) = .ok ∧
      writeAnswer (answering []) = .ok := ⟨by decide, rfl, rfl, rfl, rfl, rfl⟩
theorem witness_RequestRowsFail_cap : encode (.reqWriteCoil05 1 3 true) = .req v70 ∧ 7 < v70.length ∧
    ({ State.reset with txCap := some 7 } : State).txCap = some 7 := by decide
theorem witness_RequestRowsFail_open : openAnswer (scripted (.fail refusedPair) .ok .timeout) = .fail refusedPair := rfl
theorem witness_RequestRowsFail_write : openAnswer (scripted .ok (.ioError refusedPair) .timeout) = .ok ∧
    writeAnswer (scripted .ok (.ioError refusedPair) .timeout) = .ioError refusedPair := ⟨rfl, rfl⟩
theorem witness_ResponseRowsAnswerTheRequestInFlight : encode (.rspBits01 1 [0x05, 0x02] 0x6D3B) = .rsp v41 ∧
    (Instr.rspBits01 1 [0x05, 0x02] 0x6D3B).wellFormed = true ∧ (waiting (.bits 0 10) []).exchange = some (.bits 0 10) ∧
    validate v41 = none := by decide
theorem witness_ResponseRows_failure : encode (.rspException 1 0x03 [0x02] 0xF1C0) = .rsp [0x01, 0x83, 0x02, 0xC0, 0xF1] ∧
    validate [0x01, 0x83, 0x02, 0xC0, 0xF1] = some (.modbusException .illegalDataAddress) := by decide
theorem witness_UnsolicitedResponses : encode (.rspEcho05 1 3 0xFF00 0x3A7C) = .rsp v70 ∧ State.reset.exchange = none := by decide
theorem witness_NoSecondOperation : (waiting .raw []).exchange ≠ none ∧ (encode (.crc16 [])).space ≠ .rsp := by decide
theorem witness_TwoStepExchange : (answering v41).exchange = none ∧ (answering v41).txCap = none ∧ LinkAnswers (answering v41) v41 :=
  ⟨rfl, rfl, linkAnswers_answering v41⟩

theorem witness_StepRunsTheDecodedInstruction : (presenting (.cmd 0 [])).presented = [.cmd 0 []] ∧
    decode (.cmd 0 []) = .instr (.crc16 []) := by decide
theorem witness_IdleStepChangesNothing : State.reset.presented = [] := rfl
theorem witness_UnusedSelectors : 0xB ≤ (0xB : BitVec 4).toNat ∧ (presenting (.cmd 0xB [])).presented = [.cmd 0xB []] ∧
    (presenting (.cmd 0xB [])).exchange = none := by decide
theorem witness_AnyReceivedBytes :
    ({ waiting .raw [] with presented := [.rsp (List.replicate 257 0)] } : State).exchange = some .raw := rfl
theorem witness_UnpresentableItems : (presenting (.cmd 9 [])).presented = [.cmd 9 []] ∧
    decode (.cmd 9 []) = .rejected (.operandsDoNotFit 9) ∧ decode (.req []) = .rejected .noRequestRow := by decide
theorem witness_DecodeOfEncode : (Instr.rspWriteMulti10 1 [0, 6] 0x1F80).wellFormed = true ∧
    (Instr.rspWriteMulti10 1 (List.replicate 252 0) 0).wellFormed = true := by decide
theorem witness_EncodeOfDecode : decode (.rsp v50) = .instr (.rspWords03 0x01 [0xFFF6, 0x00FA] 0x56AA) := by decide
theorem witness_RowsOfOneSpace : (Instr.rspException 1 3 [2] 0xF1C0).row.accepts (encode (.rspException 1 0x7F [] 0)) = true := by decide
theorem witness_EveryStep : step State.reset = .next State.reset := rfl

theorem witness_Inv_in_flight : Inv (waiting .echo v70) := -- not the state after reset: a request is out
  ⟨fun h => (nomatch h), fun _ => ⟨rfl, rfl, rfl, rfl, v70, rfl, ⟨by decide, by decide⟩, fun _ h => (nomatch h)⟩, fun _ h => (nomatch h)⟩
theorem witness_LinkOrder_in_flight : LinkOrder (waiting .echo v70) ∧
    linkOf (step { waiting .echo v70 with presented := [.rsp v70] }) = [.opened, .wrote v70, .read v70, .closed] :=
  ⟨rfl, by decide⟩
theorem witness_EveryOperationOwesAResult : (encode (.readStatus .defaults)).space = .cmd ∧ State.reset.exchange = none := by decide
theorem witness_OperationsForgetThePast :
    let s := answering v41
    let s' := { answering v41 with host := "other", result := some (.failed .crcMismatch) }
    s.exchange = none ∧ s'.exchange = none ∧ s'.unitId = s.unitId ∧ s'.txCap = s.txCap ∧ s'.linkIoError = s.linkIoError ∧
      openAnswer s' = openAnswer s ∧ writeAnswer s' = writeAnswer s ∧ readAnswer s' = readAnswer s :=
  ⟨rfl, rfl, rfl, rfl, rfl, rfl, rfl, rfl⟩

/-! ### Stops and rejections at the step -/

theorem test_illegal_selector : -- V91
    resultOf (step (presenting (.cmd 0xF [0x01]))) = some (.failed .illegalOperation) := by decide
theorem test_illegal_selector_in_flight : -- the model's choice, log 31
    step { waiting .raw [] with presented := [.cmd 0xB []] } = .fault .operationInProgress := rfl
theorem test_second_operation_has_no_step : exec (.crc16 []) (waiting .raw []) = .fault .operationInProgress := rfl
theorem test_misfit_operands_are_refused : step (presenting (.cmd 9 [])) = .refused .operandsDoNotFit := rfl
theorem test_received_bytes_without_a_row : -- V43, through the step
    resultOf (step { waiting (.bits 0 10) [] with presented := [.rsp [0x01, 0x01, 0x02, 0x05, 0x91, 0x7B]] }) =
      some (.failed .decodeUndefined) := by decide

end Sys2Proof.Tests
end

section
/-! SUPPORT. How the step goes through its parts: with an item presented it runs that item, and an item with a decoding runs as its instruction. -/

namespace Sys2Proof.Machine

theorem takePresented_of_presented {s : State} {p : Presented} {rest : List Presented} (h : s.presented = p :: rest) :
    takePresented s = some (p, { s with presented := rest }) := by
  simp only [takePresented, h]

/-- With an item presented the step is the run of that item, whether it decodes or is rejected. -/
theorem step_of_presented {s : State} {p : Presented} {rest : List Presented} (h : s.presented = p :: rest) :
    step s = runPresented p { s with presented := rest } := by
  simp only [step, takePresented_of_presented h]

theorem runPresented_of_decode_instr {p : Presented} {i : Instr} (h : decode p = .instr i) (s : State) :
    runPresented p s = exec i s := by
  simp only [runPresented, h]

/-- Settles O41: the step runs the item taken off the input, and that item runs as the instruction it decodes to. -/
theorem stepRunsTheDecodedInstruction : Obligations.StepRunsTheDecodedInstruction := by
  intro s p rest i hpresented hdecode
  calc step s = runPresented p { s with presented := rest } := step_of_presented hpresented
    _ = exec i { s with presented := rest } := runPresented_of_decode_instr hdecode _

end Sys2Proof.Machine
end

section
/-! SUPPORT. Results keep the promises of R110 and R133 (41_frame_codec.md, 42_read_ops.md): a frame handed over passed the validator, and the addresses of a decoded value set ascend. -/

namespace Sys2Proof.Machine

/-- Entries whose addresses count up from a start address have strictly ascending addresses. -/
theorem addresses_ascend {α : Type} {entry : Nat → Option (Nat × α)} {entries : List (Nat × α)} {start n : Nat}
    (hlength : entries.length = n) (hentries : ∀ i, i < n → entry i = entries[i]?)
    (haddress : ∀ i x, entry i = some x → x.1 = start + i) : (entries.map Prod.fst).Pairwise (· < ·) := by
  have haddresses (i : Nat) (hi : i < entries.length) : entries[i].1 = start + i :=
    haddress i _ ((hentries i (hlength ▸ hi)).trans (List.getElem?_eq_getElem hi))
  rw [List.pairwise_map, List.pairwise_iff_getElem]
  intro i j hi hj hij
  rw [haddresses i hi, haddresses j hj]
  omega

theorem bitEntry_address {resp : List Byte} {start : Word16} (i : Nat) (x : Nat × Bool)
    (h : bitEntry resp start i = some x) : x.1 = start.toNat + i := by
  obtain ⟨b, -, rfl⟩ := Option.map_eq_some_iff.1 h
  rfl

theorem wordEntry_address {table : ScaleTable} {resp : List Byte} {start : Word16} (i : Nat) (x : Nat × Scaled)
    (h : wordEntry table resp start i = some x) : x.1 = start.toNat + i := by
  unfold wordEntry at h
  split at h
  · obtain rfl := Option.some.inj h
    rfl
  · cases h

theorem goodResult_of_decodeBits {resp : List Byte} {start quantity : Word16} {entries : List (Nat × Bool)}
    (h : decodeBits resp start quantity = some entries) : GoodResult (.ok (.valueSet (.bits entries))) := by
  obtain ⟨-, hlength, hentries⟩ := (decodeBits_eq_some_iff _ _ _ _).1 h
  exact addresses_ascend hlength hentries bitEntry_address

theorem goodResult_of_decodeWords {table : ScaleTable} {resp : List Byte} {start quantity : Word16}
    {entries : List (Nat × Scaled)} (h : decodeWords table resp start quantity = some entries) :
    GoodResult (.ok (.valueSet (.words entries))) := by
  obtain ⟨-, hlength, hentries⟩ := (decodeWords_eq_some_iff _ _ _ _ _).1 h
  exact addresses_ascend hlength hentries wordEntry_address

/-- Only SEND_REQUEST hands the response on, so only its result needs the response to be good. -/
theorem goodResult_interpret {resp : List Byte} (p : Purpose) (request : Option (List Byte)) (h : GoodFrame resp) :
    GoodResult (interpret p request resp) := by
  cases p with
  | raw => exact h
  | bits start quantity =>
    simp only [interpret]
    split
    next hdecode => exact goodResult_of_decodeBits hdecode
    · trivial
  | words table start quantity =>
    simp only [interpret]
    split
    next hdecode => exact goodResult_of_decodeWords hdecode
    · trivial
  | echo =>
    simp only [interpret]
    split <;> trivial
  | echoPrefix =>
    simp only [interpret]
    split <;> trivial

theorem goodResult_answerResult (p : Purpose) (request : Option (List Byte)) (bytes : List Byte) :
    GoodResult (answerResult p request bytes) := by
  unfold answerResult
  split
  · trivial
  next hvalid => exact goodResult_interpret p request (validate_eq_none hvalid)

end Sys2Proof.Machine
end

section
/-! SUPPORT. Every move of the machine ends the operation, puts a request in flight, or changes nothing; the invariant and the frame of every step are read off these three. -/

namespace Sys2Proof.Machine

/-- The operation has ended with a good result, and the connection is closed or, with no exchange in flight before, as it was (10_state.md R24). -/
def Ended (s t : State) : Prop :=
  Over s t ∧ ((s.exchange = none ∧ t.conn = s.conn) ∨ t.conn = .closed) ∧ ∃ r, t.result = some r ∧ GoodResult r

/-- With no exchange in flight before, a request has gone out; RXBUF is not touched by sending (10_state.md R15, R24; log 9). -/
def PutInFlight (s t : State) : Prop :=
  s.exchange = none ∧ Kept s t ∧ t.exchange ≠ none ∧ (s.rxbuf = none → InFlight t)

theorem ended_deliver {s t : State} {r : Result} (hkept : Kept s t)
    (hconn : (s.exchange = none ∧ t.conn = s.conn) ∨ t.conn = .closed) (hgood : GoodResult r) : Ended s (deliver r t) :=
  ⟨over_deliver r hkept, hconn, r, rfl, hgood⟩

/-- Raising a failure with the connection just closed. -/
theorem ended_raise_linkClosed {s t : State} (f : Failure) (hkept : Kept s t) : Ended s (raise f (linkClosed t)) :=
  ended_deliver (hkept.trans (kept_linkClosed t)) (.inr rfl) trivial

/-- Raising ConnectionFailed after a failed open: there was no connection to close (44_transaction.md R172). -/
theorem ended_raise_linkOpenFailed {s : State} (f : Failure) (e : LinkErr) (hidle : s.exchange = none) :
    Ended s (raise f (linkOpenFailed e s)) :=
  ended_deliver (kept_linkOpenFailed e s) (.inl ⟨hidle, rfl⟩) trivial

theorem ended_receive {s t : State} (p : Purpose) (bytes : List Byte) (hkept : Kept s t) : Ended s (receive p bytes t) :=
  ⟨over_receive p bytes hkept, .inr (by rw [receive_eq]), _, by rw [receive_eq], goodResult_answerResult p t.txbuf bytes⟩

theorem fitsTx_iff (s : State) (payload : List Byte) :
    fitsTx s payload = true ↔ ∀ cap, s.txCap = some cap → payload.length + 4 ≤ cap := by
  unfold fitsTx
  split <;> simp_all

/-- What the sending half leaves once the frame is on the wire is in flight (log 9). -/
theorem putInFlight_afterWrite {s : State} {payload : List Byte} (p : Purpose) (unit fn : Byte)
    (hidle : s.exchange = none) (hfits : fitsTx s payload = true) :
    PutInFlight s { afterWrite unit fn payload s with exchange := some p, result := none, crcGen := none } := by
  have hcap : ∀ cap, s.txCap = some cap → (requestFrame unit fn payload).length ≤ cap := by
    rw [requestFrame_length]
    exact (fitsTx_iff s payload).1 hfits
  exact ⟨hidle, kept_afterWrite unit fn payload s, Option.some_ne_none p, fun hrxbuf =>
    ⟨rfl, rfl, rfl, hrxbuf, requestFrame unit fn payload, rfl, goodFrame_requestFrame unit fn payload, hcap⟩⟩

theorem transact_ended {s : State} (p : Purpose) (fn : Byte) (payload : List Byte) (hidle : s.exchange = none) :
    Ended s (transact p fn payload s) := by
  have hsent := kept_afterWrite s.unitId fn payload s
  rcases transact_cases p fn payload s with ⟨e, -, heq⟩ | ⟨-, -, heq⟩ | ⟨e, -, -, -, heq⟩ | ⟨e, -, -, -, -, heq⟩ | ⟨received, -, -, heq⟩ <;>
    rw [heq]
  · exact ended_raise_linkOpenFailed _ e hidle
  · exact ended_raise_linkClosed _ (kept_linkOpened s)
  · exact ended_raise_linkClosed _ (((kept_linkOpened s).trans (kept_loadTx _ _ _ _)).trans (kept_linkWriteFailed _ _))
  · exact ended_raise_linkClosed _ ((hsent.trans (kept_takeRead _)).trans (kept_linkReadFailed _ _))
  · exact ended_receive p received (hsent.trans (kept_takeRead _))

theorem sendRow_ended_or_putInFlight {s : State} (p : Purpose) (unit fn : Byte) (payload : List Byte)
    (hidle : s.exchange = none) :
    Ended s (sendRow p unit fn payload s) ∨ PutInFlight s (sendRow p unit fn payload s) := by
  rcases sendRow_cases p unit fn payload s with ⟨-, heq⟩ | ⟨e, -, -, heq⟩ | ⟨e, -, -, -, heq⟩ | ⟨hfits, -, -, heq⟩ <;> rw [heq]
  · exact .inl (ended_deliver (.refl s) (.inl ⟨hidle, rfl⟩) trivial)
  · exact .inl (ended_raise_linkOpenFailed _ e hidle)
  · exact .inl (ended_raise_linkClosed _ (((kept_linkOpened s).trans (kept_loadTx _ _ _ _)).trans (kept_linkWriteFailed _ _)))
  · exact .inr (putInFlight_afterWrite p unit fn hidle hfits)

/-- The three ways a move comes out. -/
theorem Moves.ended_or_putInFlight_or_eq {s t : State} (h : Moves s t) : Ended s t ∨ PutInFlight s t ∨ t = s := by
  cases h with
  | delivers r hgood hidle => exact .inl (ended_deliver (.refl s) (.inl ⟨hidle, rfl⟩) hgood)
  | transacts p fn payload hidle => exact .inl (transact_ended p fn payload hidle)
  | sends p unit fn payload hidle => exact (sendRow_ended_or_putInFlight p unit fn payload hidle).imp_right .inl
  | receives p bytes => exact .inl (ended_receive p bytes (.refl s))
  | ignores => exact .inr (.inr rfl)

end Sys2Proof.Machine
end

section
/-! SUPPORT. The invariant and the configuration: at construction, and over every step. -/

namespace Sys2Proof.Machine

theorem Inv.atRest {s : State} (h : Inv s) (hidle : s.exchange = none) : AtRest s := h.1 hidle

theorem Ended.inv {s t : State} (h : Ended s t) (hs : Inv s) : Inv t := by
  obtain ⟨⟨-, -, hexchange, hdead⟩, hconn, r, hresult, hgood⟩ := h
  have hclosed : t.conn = .closed := by
    rcases hconn with ⟨hidle, hsame⟩ | hclosed
    · obtain ⟨hclosed, -⟩ := hs.atRest hidle
      exact hsame.trans hclosed
    · exact hclosed
  refine ⟨fun _ => ⟨hclosed, hdead⟩, fun hne => absurd hexchange hne, fun r' hr' => ?_⟩
  obtain rfl : r = r' := Option.some.inj (hresult.symm.trans hr')
  exact hgood

theorem PutInFlight.inv {s t : State} (h : PutInFlight s t) (hs : Inv s) : Inv t := by
  obtain ⟨hidle, -, hexchange, hinFlight⟩ := h
  obtain ⟨-, -, -, hrxbuf⟩ := hs.atRest hidle
  obtain ⟨-, hresult, -⟩ := hinFlight hrxbuf
  exact ⟨fun hnone => absurd hnone hexchange, fun _ => hinFlight hrxbuf, fun r hr => nomatch hresult.symm.trans hr⟩

theorem Moves.inv {s t : State} (h : Moves s t) (hs : Inv s) : Inv t := by
  rcases h.ended_or_putInFlight_or_eq with hended | hput | rfl
  · exact hended.inv hs
  · exact hput.inv hs
  · exact hs

theorem Moves.configKept {s t : State} (h : Moves s t) : ConfigKept s t := by
  rcases h.ended_or_putInFlight_or_eq with ⟨⟨hkept, -⟩, -⟩ | ⟨-, ⟨hkept, -⟩, -⟩ | rfl
  · exact hkept
  · exact hkept
  · exact .refl _

/-- The invariant does not speak of the items still to be run. -/
theorem inv_with_presented_iff (s : State) (items : List Presented) : Inv { s with presented := items } ↔ Inv s := Iff.rfl

theorem configKept_with_presented (s : State) (items : List Presented) : ConfigKept s { s with presented := items } :=
  ⟨rfl, rfl, rfl, rfl, rfl, rfl⟩

theorem inv_construct (unitId : Byte) (host : String) (port : Int) : Inv (State.construct unitId host port) :=
  ⟨fun _ => ⟨rfl, rfl, rfl, rfl⟩, fun hne => absurd rfl hne, fun _ hr => nomatch hr⟩

theorem linkOrder_construct (unitId : Byte) (host : String) (port : Int) : LinkOrder (State.construct unitId host port) := rfl

/-- Settles O53: an ended operation is at rest, a request put out is in flight, and the idle step changes nothing. -/
theorem everyStepKeepsTheInvariant : Obligations.EveryStepKeepsTheInvariant := by
  intro s t hs hstep
  rcases step_cases hstep with ⟨-, rfl⟩ | ⟨p, rest, -, hmoves⟩
  · exact hs
  · exact hmoves.inv ((inv_with_presented_iff s rest).2 hs)

/-- Settles O55: taking an item off the input and each of the moves keep the configuration. -/
theorem noStepWritesTheConfiguration : Obligations.NoStepWritesTheConfiguration := by
  intro s t hstep
  rcases step_cases hstep with ⟨-, rfl⟩ | ⟨p, rest, -, hmoves⟩
  · exact .refl _
  · exact (configKept_with_presented s rest).trans hmoves.configKept

/-- Settles O50: the client is `State.construct` of the parameters, and there is none unless HOST and PORT are both given. -/
theorem constructionLeavesTheResetValues : Obligations.ConstructionLeavesTheResetValues := by
  refine ⟨fun unitId host port => ?_, fun _ _ => rfl, fun _ host => ?_, rfl⟩
  · exact ⟨State.construct (unitId.getD 1) host port, rfl, rfl, rfl, rfl, rfl, rfl, rfl, rfl, rfl, rfl, rfl, rfl, rfl⟩
  · cases host with
    | none => rfl
    | some _ => rfl

/-- Settles O52: both invariants hold of every constructed state, and reset is one. -/
theorem resetMeetsTheInvariants : Obligations.ResetMeetsTheInvariants :=
  ⟨inv_construct 1 "" 0, linkOrder_construct 1 "" 0⟩

end Sys2Proof.Machine
end

section
/-! SUPPORT. What each move adds to the record of the link, said once, and the order of R170 read off it (20_memory.md R42, R44; 44_transaction.md R170, R172, R173). -/

namespace Sys2Proof.Machine

/-- The phase the exchange field stands for: a request in flight has been sent and awaits its one read (10_state.md R19, log 12). -/
def exchangePhase (s : State) : LinkPhase :=
  match s.exchange with
  | none => .idle
  | some _ => .sent

theorem exchangePhase_of_idle {s : State} (h : s.exchange = none) : exchangePhase s = .idle := by
  simp only [exchangePhase, h]

theorem exchangePhase_of_inFlight {s : State} {p : Purpose} (h : s.exchange = some p) : exchangePhase s = .sent := by
  simp only [exchangePhase, h]

theorem linkOrder_iff (s : State) : LinkOrder s ↔ linkPhase s.link.log = some (exchangePhase s) := Iff.rfl

/-- The events one move adds to the record, between the phase before it and the phase after it (44_transaction.md R170, R172 to R176). -/
inductive MoveEvents : LinkPhase → List LinkEvent → LinkPhase → Prop where
  /-- The link port is not touched. -/
  | untouched (p : LinkPhase) : MoveEvents p [] p
  /-- The open fails (R172). -/
  | openFailed (e : LinkErr) : MoveEvents .idle [.openFailed e] .idle
  /-- The frame does not fit TX_CAP (R176). -/
  | refused : MoveEvents .idle [.opened, .closed] .idle
  /-- The write fails (R175). -/
  | writeFailed (e : LinkErr) : MoveEvents .idle [.opened, .writeFailed e, .closed] .idle
  /-- The read fails (R175). -/
  | readFailed (frame : List Byte) (e : LinkErr) : MoveEvents .idle [.opened, .wrote frame, .readFailed e, .closed] .idle
  /-- A whole round trip (R170). -/
  | roundTrip (frame bytes : List Byte) (h : bytes.length ≤ rxMax) :
      MoveEvents .idle [.opened, .wrote frame, .read bytes, .closed] .idle
  /-- The sending half alone (log 9). -/
  | sent (frame : List Byte) : MoveEvents .idle [.opened, .wrote frame] .sent
  /-- The receiving half alone (log 10). -/
  | received (bytes : List Byte) (h : bytes.length ≤ rxMax) : MoveEvents .sent [.read bytes, .closed] .idle

/-- A record that keeps the order up to a move keeps it over the move's events. -/
theorem MoveEvents.linkPhase_append {p q : LinkPhase} {events log : List LinkEvent} (h : MoveEvents p events q)
    (hlog : linkPhase log = some p) : linkPhase (log ++ events) = some q := by
  have happend : linkPhase (log ++ events) = events.foldl (fun p e => p.bind (·.next e)) (some p) := by
    rw [← hlog]
    exact List.foldl_append
  rw [happend]
  cases h with
  | untouched => rfl
  | openFailed e => rfl
  | refused => rfl
  | writeFailed e => rfl
  | readFailed frame e => rfl
  | roundTrip frame bytes hbytes => simp [LinkPhase.next, hbytes]
  | sent frame => rfl
  | received bytes hbytes => simp [LinkPhase.next, hbytes]

/-- From `s` to `t` the record grows by the events of one move, between the phases of the two exchange fields. -/
def AddsEvents (s t : State) : Prop :=
  ∃ events, t.link.log = s.link.log ++ events ∧ MoveEvents (exchangePhase s) events (exchangePhase t)

theorem addsEvents_of_idle {s t : State} {events : List LinkEvent} (hidle : s.exchange = none) (hover : t.exchange = none)
    (hlog : t.link.log = s.link.log ++ events) (h : MoveEvents .idle events .idle) : AddsEvents s t :=
  ⟨events, hlog, by rwa [exchangePhase_of_idle hidle, exchangePhase_of_idle hover]⟩

theorem AddsEvents.linkOrder {s t : State} (h : AddsEvents s t) (hs : LinkOrder s) : LinkOrder t := by
  obtain ⟨events, hlog, hevents⟩ := h
  rw [linkOrder_iff] at hs ⊢
  rw [hlog]
  exact hevents.linkPhase_append hs

theorem receive_log (p : Purpose) (bytes : List Byte) (s : State) :
    (receive p bytes s).link.log = s.link.log ++ [.read bytes, .closed] := by
  rw [receive_linkAfter]
  rfl

theorem receive_exchange (p : Purpose) (bytes : List Byte) (s : State) : (receive p bytes s).exchange = none := by
  rw [receive_eq]

theorem transact_addsEvents {s : State} (p : Purpose) (fn : Byte) (payload : List Byte) (hidle : s.exchange = none) :
    AddsEvents s (transact p fn payload s) := by
  obtain ⟨⟨-, -, hover, -⟩, -⟩ := transact_ended p fn payload hidle
  rcases transact_cases p fn payload s with
    ⟨e, -, heq⟩ | ⟨-, -, heq⟩ | ⟨e, -, -, -, heq⟩ | ⟨e, -, -, -, -, heq⟩ | ⟨received, -, hanswers, heq⟩
  · exact addsEvents_of_idle hidle hover (by simp [heq]) (.openFailed e)
  · exact addsEvents_of_idle hidle hover (by simp [heq]) .refused
  · exact addsEvents_of_idle hidle hover (by simp [heq]) (.writeFailed e)
  · exact addsEvents_of_idle hidle hover (by simp [heq]) (.readFailed (requestFrame s.unitId fn payload) e)
  · exact addsEvents_of_idle hidle hover (by simp [heq, receive_log])
      (.roundTrip (requestFrame s.unitId fn payload) received hanswers.length_le)

theorem sendRow_addsEvents {s : State} (p : Purpose) (unit fn : Byte) (payload : List Byte) (hidle : s.exchange = none) :
    AddsEvents s (sendRow p unit fn payload s) := by
  rcases sendRow_cases p unit fn payload s with ⟨-, heq⟩ | ⟨e, -, -, heq⟩ | ⟨e, -, -, -, heq⟩ | ⟨-, -, -, heq⟩ <;> rw [heq]
  · exact addsEvents_of_idle hidle rfl (by simp) (.untouched _)
  · exact addsEvents_of_idle hidle rfl (by simp) (.openFailed e)
  · exact addsEvents_of_idle hidle rfl (by simp) (.writeFailed e)
  · refine ⟨[.opened, .wrote (requestFrame unit fn payload)], by simp, ?_⟩
    rw [exchangePhase_of_idle hidle]
    exact .sent _

theorem receive_addsEvents {s : State} {p : Purpose} {bytes : List Byte} (hbytes : bytes.length ≤ rxMax)
    (hinFlight : s.exchange = some p) : AddsEvents s (receive p bytes s) := by
  refine ⟨_, receive_log p bytes s, ?_⟩
  rw [exchangePhase_of_inFlight hinFlight, exchangePhase_of_idle (receive_exchange p bytes s)]
  exact .received bytes hbytes

theorem Moves.addsEvents {s t : State} (h : Moves s t) : AddsEvents s t := by
  cases h with
  | delivers r _ hidle => exact addsEvents_of_idle hidle rfl (by simp) (.untouched _)
  | transacts p fn payload hidle => exact transact_addsEvents p fn payload hidle
  | sends p unit fn payload hidle => exact sendRow_addsEvents p unit fn payload hidle
  | receives p bytes hbytes hinFlight => exact receive_addsEvents hbytes hinFlight
  | ignores hidle => exact addsEvents_of_idle hidle hidle (by simp) (.untouched _)

/-- The order at the link does not speak of the items still to be run. -/
theorem linkOrder_with_presented_iff (s : State) (items : List Presented) :
    LinkOrder { s with presented := items } ↔ LinkOrder s := Iff.rfl

/-- Settles O54: the events of a move lead from the phase of the exchange before it to the phase of the exchange after it. -/
theorem everyStepKeepsTheLinkOrder : Obligations.EveryStepKeepsTheLinkOrder := by
  intro s t hs hstep
  rcases step_cases hstep with ⟨-, rfl⟩ | ⟨p, rest, -, hmoves⟩
  · exact hs
  · exact hmoves.addsEvents.linkOrder ((linkOrder_with_presented_iff s rest).2 hs)

end Sys2Proof.Machine
end

section
/-! SUPPORT. With a request in flight the host and the request rows are stopped (20_memory.md R45, 70_reset_and_hazards.md R224). -/

namespace Sys2Proof.Machine

/-- Settles O39: the operations and the request rows run under `whenIdle`, and all that does not is a response row. -/
theorem noSecondOperationWhileOneIsInProgress : Obligations.NoSecondOperationWhileOneIsInProgress := by
  intro s i hbusy hspace
  cases i with
  | rspBits01 | rspBits02 | rspWords03 | rspEcho05 | rspEcho06 | rspWriteMulti10 | rspException => exact absurd rfl hspace
  | _ => exact whenIdle_busy (fun s => _) hbusy

end Sys2Proof.Machine
end

section
/-! SUPPORT. Decoding after encoding, through each shared form once: read operands, coil operand and coil word, two-word payloads, the multiple write, the responses (30_encoding.md R54 to R65). -/

namespace Sys2Proof

open Machine

theorem decodeRead_encodeReadOperands (op : BitVec 4) (r : ReadOperands) (mk : ReadOperands → Instr) :
    decodeRead op (encodeReadOperands r) mk = .instr (mk r) := by
  simp only [decodeRead, decodeReadOperands_encodeReadOperands]

theorem decodeCmd_writeSingleCoil (a : Word16) (v : Bool) :
    decodeCmd 0x8 (be16Bytes a ++ [if v then 1 else 0]) = .instr (.writeSingleCoil a v) := by
  cases v <;> simp [decodeCmd, be16Bytes, be16_hi8_lo8]

theorem decodeCmd_writeMultipleRegisters (a : Word16) (vs : List Word16) :
    decodeCmd 0xA (be16Bytes a ++ bytesOfWords vs) = .instr (.writeMultipleRegisters a vs) := by
  simp [decodeCmd, be16Bytes, be16_hi8_lo8, wordsOfBytes_bytesOfWords]

theorem decodeCoilRequest_coilWord (unit : Byte) (a : Word16) (v : Bool) :
    decodeCoilRequest unit a (coilWord v) = .instr (.reqWriteCoil05 unit a v) := by
  cases v <;> simp [decodeCoilRequest, coilWord]

theorem decodeMultipleRequest_bytesOfWords (unit : Byte) (start : Word16) {values : List Word16}
    (h : values.length ≤ writeMultipleMax) :
    decodeMultipleRequest unit start (BitVec.ofNat 16 values.length) (BitVec.ofNat 8 (2 * values.length)) (bytesOfWords values) =
      .instr (.reqWriteMulti10 unit start values) := by
  simp only [decodeMultipleRequest, wordsOfBytes_bytesOfWords, h, and_self, if_true]

theorem decodeRequestBody_multiplePayload (unit : Byte) (start : Word16) (values : List Word16) :
    decodeRequestBody unit 0x10 (multiplePayload start values) =
      decodeMultipleRequest unit start (BitVec.ofNat 16 values.length) (BitVec.ofNat 8 (2 * values.length)) (bytesOfWords values) := by
  simp [decodeRequestBody, multiplePayload, be16Bytes, be16_hi8_lo8]

theorem decodeBitsResponse_bitsPayload (bitfield : List Byte) (mk : List Byte → Instr) :
    decodeBitsResponse (bitsPayload bitfield) mk = .instr (mk bitfield) := by
  simp only [decodeBitsResponse, bitsPayload, if_true]

theorem decodeWordsResponse_wordsPayload (words : List Word16) (mk : List Word16 → Instr) :
    decodeWordsResponse (wordsPayload words) mk = .instr (mk words) := by
  simp only [decodeWordsResponse, wordsPayload, wordsOfBytes_bytesOfWords, if_true]

theorem decodeEchoResponse_twoWordPayload (a v : Word16) (mk : Word16 → Word16 → Instr) :
    decodeEchoResponse (twoWordPayload a v) mk = .instr (mk a v) := by
  simp [decodeEchoResponse, twoWordPayload, be16Bytes, be16_hi8_lo8]

theorem exceptionFunction_getLsbD_seven (function : BitVec 7) : (exceptionFunction function).getLsbD 7 = true := by
  revert function; decide

theorem exceptionFunction_extractLsb' (function : BitVec 7) : (exceptionFunction function).extractLsb' 0 7 = function := by
  revert function; decide

theorem wordsPayload_length (words : List Word16) : (wordsPayload words).length = 2 * words.length + 1 := by
  rw [wordsPayload, List.length_cons, bytesOfWords_length]

/-- The payload of an echo is far below what one read can deliver (30_encoding.md R51, R60). -/
theorem twoWordPayload_fits (a v : Word16) : (twoWordPayload a v).length + 4 ≤ rxMax := by
  simp [twoWordPayload, be16Bytes, rxMax]

theorem decode_rsp_of_decodeResponseBody {unit fn : Byte} {payload : List Byte} {crc : Word16} {i : Instr}
    (hlength : payload.length + 4 ≤ rxMax) (h : decodeResponseBody unit fn payload crc = .instr i) :
    decode (.rsp (responseFrame unit fn payload crc)) = .instr i :=
  (decodeResponse_responseFrame unit fn payload crc hlength).trans h

/-- Settles O46: the encoder's form of each constructor is the one its decoder reads. -/
theorem decodeOfEncodeIsTheInstruction : Obligations.DecodeOfEncodeIsTheInstruction := by
  intro i hwf
  cases i with
  | crc16 | buildRequest | sendRequest => rfl
  | validateResponse frame expected => cases expected <;> rfl
  | readStatus r | readAlarms r | readSensors r | readConfiguration r => exact decodeRead_encodeReadOperands _ r _
  | writeSingleCoil a v => exact decodeCmd_writeSingleCoil a v
  | writeSingleRegister a v => simp [decode, encode, decodeCmd, be16Bytes, be16_hi8_lo8]
  | writeMultipleRegisters a vs => exact decodeCmd_writeMultipleRegisters a vs
  | reqRead01 u a v | reqRead02 u a v | reqRead03 u a v | reqWriteReg06 u a v =>
    rw [encode, decode, decodeRequest_requestFrame]
    simp [decodeRequestBody, twoWordPayload, be16Bytes, be16_hi8_lo8]
  | reqWriteCoil05 u a v =>
    rw [encode, decode, decodeRequest_requestFrame, ← decodeCoilRequest_coilWord]
    simp [decodeRequestBody, twoWordPayload, be16Bytes, be16_hi8_lo8]
  | reqWriteMulti10 u a vs =>
    rw [encode, decode, decodeRequest_requestFrame, decodeRequestBody_multiplePayload]
    exact decodeMultipleRequest_bytesOfWords u a (of_decide_eq_true hwf)
  | rspBits01 u bits crc =>
    exact decode_rsp_of_decodeResponseBody (of_decide_eq_true hwf) (decodeBitsResponse_bitsPayload bits (.rspBits01 u · crc))
  | rspBits02 u bits crc =>
    exact decode_rsp_of_decodeResponseBody (of_decide_eq_true hwf) (decodeBitsResponse_bitsPayload bits (.rspBits02 u · crc))
  | rspWords03 u words crc =>
    have hlength : (wordsPayload words).length + 4 ≤ rxMax := by
      rw [wordsPayload_length]
      exact of_decide_eq_true hwf
    exact decode_rsp_of_decodeResponseBody hlength (decodeWordsResponse_wordsPayload words (.rspWords03 u · crc))
  | rspEcho05 u a v crc =>
    exact decode_rsp_of_decodeResponseBody (twoWordPayload_fits a v) (decodeEchoResponse_twoWordPayload a v (.rspEcho05 u · · crc))
  | rspEcho06 u a v crc =>
    exact decode_rsp_of_decodeResponseBody (twoWordPayload_fits a v) (decodeEchoResponse_twoWordPayload a v (.rspEcho06 u · · crc))
  | rspWriteMulti10 u payload crc =>
    obtain ⟨hmin, hmax⟩ := Bool.and_eq_true_iff.1 hwf
    exact decode_rsp_of_decodeResponseBody (of_decide_eq_true hmax) (if_pos (of_decide_eq_true hmin))
  | rspException u function payload crc =>
    refine decode_rsp_of_decodeResponseBody (of_decide_eq_true hwf) ?_
    rw [decodeResponseBody, if_pos (exceptionFunction_getLsbD_seven function), exceptionFunction_extractLsb']

end Sys2Proof
end

section
/-! SUPPORT. Encoding after decoding: what each part of the decoder reads is the encoder's form of what it reads it as (30_encoding.md R54 to R70). -/

namespace Sys2Proof

open Machine

theorem encode_of_decodeCmd {op : BitVec 4} {operands : List Byte} {i : Instr} (h : decodeCmd op operands = .instr i) :
    i.wellFormed = true ∧ encode i = .cmd op operands := by
  unfold decodeCmd at h
  split at h
  case h_1 hop =>
    obtain rfl : op = 0x0 := BitVec.eq_of_toNat_eq hop
    obtain rfl := Decoded.instr.inj h
    exact ⟨rfl, rfl⟩
  case h_2 hop =>
    obtain rfl : op = 0x1 := BitVec.eq_of_toNat_eq hop
    split at h <;> cases h
    exact ⟨rfl, rfl⟩
  case h_3 hop =>
    obtain rfl : op = 0x2 := BitVec.eq_of_toNat_eq hop
    split at h
    · split_ifs at h with hnone hsome
      · cases h
        exact ⟨rfl, by rw [hnone, encode]⟩
      · split at h <;> cases h
        exact ⟨rfl, by rw [hsome, encode]⟩
    · cases h
  case h_4 hop =>
    obtain rfl : op = 0x3 := BitVec.eq_of_toNat_eq hop
    split at h <;> cases h
    exact ⟨rfl, rfl⟩
  case h_5 hop | h_6 hop | h_7 hop | h_8 hop =>
    obtain ⟨r, rfl, rfl⟩ := decodeRead_eq_instr h
    exact ⟨rfl, congrArg (Presented.cmd · (encodeReadOperands r)) (BitVec.eq_of_toNat_eq hop.symm)⟩
  case h_9 hop =>
    obtain rfl : op = 0x8 := BitVec.eq_of_toNat_eq hop
    split at h
    · split_ifs at h with hfalse htrue <;> cases h
      · exact ⟨rfl, by simp [encode, be16Bytes_be16, hfalse]⟩
      · exact ⟨rfl, by simp [encode, be16Bytes_be16, htrue]⟩
    · cases h
  case h_10 hop =>
    obtain rfl : op = 0x9 := BitVec.eq_of_toNat_eq hop
    split at h <;> cases h
    exact ⟨rfl, by simp [encode, be16Bytes_be16]⟩
  case h_11 hop =>
    obtain rfl : op = 0xA := BitVec.eq_of_toNat_eq hop
    split at h
    · split at h
      next values hvalues =>
        cases h
        exact ⟨rfl, by simp [encode, be16Bytes_be16, bytesOfWords_wordsOfBytes hvalues]⟩
      · cases h
    · cases h
  case h_12 => cases h

theorem twoWordPayload_be16 (ah al vh vl : Byte) : twoWordPayload (be16 ah al) (be16 vh vl) = [ah, al, vh, vl] := by
  rw [twoWordPayload, be16Bytes_be16, be16Bytes_be16]
  rfl

theorem encode_of_decodeCoilRequest {unit : Byte} {a w : Word16} {i : Instr} (h : decodeCoilRequest unit a w = .instr i) :
    i.wellFormed = true ∧ encode i = .req (requestFrame unit 0x05 (twoWordPayload a w)) := by
  unfold decodeCoilRequest at h
  split_ifs at h with htrue hfalse <;> cases h
  · exact ⟨rfl, by rw [encode, htrue]⟩
  · exact ⟨rfl, by rw [encode, hfalse]⟩

theorem encode_of_decodeMultipleRequest {unit n : Byte} {start count : Word16} {rest : List Byte} {i : Instr}
    (h : decodeMultipleRequest unit start count n rest = .instr i) :
    i.wellFormed = true ∧
      encode i = .req (requestFrame unit 0x10 (be16Bytes start ++ be16Bytes count ++ [n] ++ rest)) := by
  unfold decodeMultipleRequest at h
  split at h
  next values hvalues =>
    split_ifs at h with hfields
    cases h
    obtain ⟨hmax, hcount, hn⟩ := hfields
    exact ⟨decide_eq_true hmax, by rw [encode, multiplePayload, hcount, hn, bytesOfWords_wordsOfBytes hvalues]⟩
  · cases h

theorem encode_of_decodeRequestBody {unit fn : Byte} {payload : List Byte} {i : Instr}
    (h : decodeRequestBody unit fn payload = .instr i) :
    i.wellFormed = true ∧ encode i = .req (requestFrame unit fn payload) := by
  unfold decodeRequestBody at h
  split at h
  next ah al vh vl =>
    rw [← twoWordPayload_be16]
    split_ifs at h with h1 h2 h3 h5 h6
    · cases h; exact ⟨rfl, by rw [encode, h1]⟩
    · cases h; exact ⟨rfl, by rw [encode, h2]⟩
    · cases h; exact ⟨rfl, by rw [encode, h3]⟩
    · rw [h5]; exact encode_of_decodeCoilRequest h
    · cases h; exact ⟨rfl, by rw [encode, h6]⟩
  next sh sl ch cl n rest _ =>
    split_ifs at h with h10
    rw [h10]
    simpa [be16Bytes_be16] using encode_of_decodeMultipleRequest h
  · cases h

theorem eq_bitsPayload_of_decodeBitsResponse {payload : List Byte} {mk : List Byte → Instr} {i : Instr}
    (h : decodeBitsResponse payload mk = .instr i) : ∃ bits, i = mk bits ∧ payload = bitsPayload bits := by
  unfold decodeBitsResponse at h
  split at h
  next n bits =>
    split_ifs at h with hn
    cases h
    exact ⟨bits, rfl, by rw [bitsPayload, hn]⟩
  · cases h

theorem eq_wordsPayload_of_decodeWordsResponse {payload : List Byte} {mk : List Word16 → Instr} {i : Instr}
    (h : decodeWordsResponse payload mk = .instr i) : ∃ words, i = mk words ∧ payload = wordsPayload words := by
  unfold decodeWordsResponse at h
  split at h
  next n rest =>
    split at h
    next words hwords =>
      split_ifs at h with hn
      cases h
      exact ⟨words, rfl, by rw [wordsPayload, hn, bytesOfWords_wordsOfBytes hwords]⟩
    · cases h
  · cases h

theorem eq_twoWordPayload_of_decodeEchoResponse {payload : List Byte} {mk : Word16 → Word16 → Instr} {i : Instr}
    (h : decodeEchoResponse payload mk = .instr i) : ∃ a v, i = mk a v ∧ payload = twoWordPayload a v := by
  unfold decodeEchoResponse at h
  split at h <;> cases h
  exact ⟨_, _, rfl, (twoWordPayload_be16 _ _ _ _).symm⟩

theorem exceptionFunction_of_getLsbD_seven {fn : Byte} (h : fn.getLsbD 7 = true) : exceptionFunction (fn.extractLsb' 0 7) = fn := by
  revert fn; decide

theorem encode_of_decodeResponseBody {unit fn : Byte} {payload : List Byte} {crc : Word16} {i : Instr}
    (hlength : payload.length + 4 ≤ rxMax) (h : decodeResponseBody unit fn payload crc = .instr i) :
    i.wellFormed = true ∧ encode i = .rsp (responseFrame unit fn payload crc) := by
  unfold decodeResponseBody at h
  split_ifs at h with hexception h1 h2 h3 h5 h6 h10 hmin
  · cases h
    exact ⟨decide_eq_true hlength, by rw [encode, exceptionFunction_of_getLsbD_seven hexception]⟩
  · obtain ⟨bits, rfl, rfl⟩ := eq_bitsPayload_of_decodeBitsResponse h
    exact ⟨decide_eq_true hlength, by rw [encode, h1]⟩
  · obtain ⟨bits, rfl, rfl⟩ := eq_bitsPayload_of_decodeBitsResponse h
    exact ⟨decide_eq_true hlength, by rw [encode, h2]⟩
  · obtain ⟨words, rfl, rfl⟩ := eq_wordsPayload_of_decodeWordsResponse h
    rw [wordsPayload_length] at hlength
    exact ⟨decide_eq_true hlength, by rw [encode, h3]⟩
  · obtain ⟨a, v, rfl, rfl⟩ := eq_twoWordPayload_of_decodeEchoResponse h
    exact ⟨rfl, by rw [encode, h5]⟩
  · obtain ⟨a, v, rfl, rfl⟩ := eq_twoWordPayload_of_decodeEchoResponse h
    exact ⟨rfl, by rw [encode, h6]⟩
  · cases h
    exact ⟨Bool.and_eq_true_iff.2 ⟨decide_eq_true hmin, decide_eq_true hlength⟩, by rw [encode, h10]⟩

/-- Settles O47: in each of the three spaces, whatever decodes is the encoder's form of what it decodes to. -/
theorem encodeOfDecodeIsTheItem : Obligations.EncodeOfDecodeIsTheItem := by
  intro p i h
  cases p with
  | cmd op operands => exact encode_of_decodeCmd h
  | req frame =>
    obtain ⟨unit, fn, payload, rfl, hbody⟩ := decodeRequest_eq_instr h
    exact encode_of_decodeRequestBody hbody
  | rsp frame =>
    obtain ⟨unit, fn, payload, crc, hlength, rfl, hbody⟩ := decodeResponse_eq_instr h
    exact encode_of_decodeResponseBody hlength hbody

end Sys2Proof
end

section
/-! SUPPORT. The rows of the opcode table do not overlap, and the space of an instruction's row is the port it stands at (30_encoding.md R70). -/

namespace Sys2Proof

open Machine

/-- The rows of the opcode table, each once, as `Instr.row` gives them (`row_mem_tableRows`). -/
def tableRows : List TableRow :=
  [⟨"CRC16", .cmd, 0x0, 0xF⟩, ⟨"BUILD_REQUEST", .cmd, 0x1, 0xF⟩, ⟨"VALIDATE_RESPONSE", .cmd, 0x2, 0xF⟩,
    ⟨"SEND_REQUEST", .cmd, 0x3, 0xF⟩, ⟨"READ_STATUS", .cmd, 0x4, 0xF⟩, ⟨"READ_ALARMS", .cmd, 0x5, 0xF⟩,
    ⟨"READ_SENSORS", .cmd, 0x6, 0xF⟩, ⟨"READ_CONFIGURATION", .cmd, 0x7, 0xF⟩, ⟨"WRITE_SINGLE_COIL", .cmd, 0x8, 0xF⟩,
    ⟨"WRITE_SINGLE_REGISTER", .cmd, 0x9, 0xF⟩, ⟨"WRITE_MULTIPLE_REGISTERS", .cmd, 0xA, 0xF⟩,
    ⟨"REQ_READ_01", .req, 0x01, 0xFF⟩, ⟨"REQ_READ_02", .req, 0x02, 0xFF⟩, ⟨"REQ_READ_03", .req, 0x03, 0xFF⟩,
    ⟨"REQ_WRITE_COIL_05", .req, 0x05, 0xFF⟩, ⟨"REQ_WRITE_REG_06", .req, 0x06, 0xFF⟩,
    ⟨"REQ_WRITE_MULTI_10", .req, 0x10, 0xFF⟩,
    ⟨"RSP_BITS_01", .rsp, 0x01, 0xFF⟩, ⟨"RSP_BITS_02", .rsp, 0x02, 0xFF⟩, ⟨"RSP_WORDS_03", .rsp, 0x03, 0xFF⟩,
    ⟨"RSP_ECHO_05", .rsp, 0x05, 0xFF⟩, ⟨"RSP_ECHO_06", .rsp, 0x06, 0xFF⟩, ⟨"RSP_WRITE_MULTI_10", .rsp, 0x10, 0xFF⟩,
    ⟨"RSP_EXCEPTION", .rsp, 0x80, 0x80⟩]

theorem row_mem_tableRows (i : Instr) : i.row ∈ tableRows := by
  cases i <;> simp [Instr.row, tableRows]

/-- Some byte meets the match of both rows under their masks only where the matches agree on the bits both masks keep. -/
def TableRow.Overlap (r r' : TableRow) : Prop := r.space = r'.space ∧ r.pattern &&& r'.mask = r'.pattern &&& r.mask

theorem TableRow.accepts_iff (r : TableRow) (p : Presented) :
    r.accepts p = true ↔ p.space = r.space ∧ ∃ b, p.selector = some b ∧ b &&& r.mask = r.pattern := by
  unfold TableRow.accepts
  cases p.selector <;> simp

theorem TableRow.overlap_of_accepts {r r' : TableRow} {p : Presented} (h : r.accepts p = true) (h' : r'.accepts p = true) :
    r.Overlap r' := by
  obtain ⟨hspace, b, hb, hpattern⟩ := (TableRow.accepts_iff r p).1 h
  obtain ⟨hspace', b', hb', hpattern'⟩ := (TableRow.accepts_iff r' p).1 h'
  obtain rfl : b = b' := Option.some.inj (hb.symm.trans hb')
  refine ⟨hspace.symm.trans hspace', ?_⟩
  rw [← hpattern, ← hpattern', BitVec.and_assoc, BitVec.and_assoc, BitVec.and_comm r.mask]

theorem tableRows_pairwise_not_overlap : tableRows.Pairwise fun r r' => ¬ r.Overlap r' := by
  unfold TableRow.Overlap
  decide

theorem eq_of_overlap {r r' : TableRow} (hr : r ∈ tableRows) (hr' : r' ∈ tableRows) (h : r.Overlap r') : r = r' := by
  have : Std.Symm fun r r' : TableRow => ¬ r.Overlap r' :=
    ⟨fun _ _ hnot ⟨hspace, hpattern⟩ => hnot ⟨hspace.symm, hpattern.symm⟩⟩
  by_contra hne
  exact tableRows_pairwise_not_overlap.forall hr hr' hne h

/-- The item of an instruction lies in the instruction's own row. -/
theorem row_accepts_encode (i : Instr) : i.row.accepts (encode i) = true := by
  cases i with
  | crc16 bytes => exact Laws.TableMatch.crc16 bytes
  | buildRequest u f p => exact Laws.TableMatch.buildRequest u f p
  | validateResponse f e => exact Laws.TableMatch.validateResponse f e
  | sendRequest f p => exact Laws.TableMatch.sendRequest f p
  | readStatus r => exact Laws.TableMatch.readStatus r
  | readAlarms r => exact Laws.TableMatch.readAlarms r
  | readSensors r => exact Laws.TableMatch.readSensors r
  | readConfiguration r => exact Laws.TableMatch.readConfiguration r
  | writeSingleCoil a v => exact Laws.TableMatch.writeSingleCoil a v
  | writeSingleRegister a v => exact Laws.TableMatch.writeSingleRegister a v
  | writeMultipleRegisters a vs => exact Laws.TableMatch.writeMultipleRegisters a vs
  | reqRead01 u a q => exact Laws.TableMatch.reqRead01 u a q
  | reqRead02 u a q => exact Laws.TableMatch.reqRead02 u a q
  | reqRead03 u a q => exact Laws.TableMatch.reqRead03 u a q
  | reqWriteCoil05 u a v => exact Laws.TableMatch.reqWriteCoil05 u a v
  | reqWriteReg06 u a v => exact Laws.TableMatch.reqWriteReg06 u a v
  | reqWriteMulti10 u a vs => exact Laws.TableMatch.reqWriteMulti10 u a vs
  | rspBits01 u b c => exact Laws.TableMatch.rspBits01 u b c
  | rspBits02 u b c => exact Laws.TableMatch.rspBits02 u b c
  | rspWords03 u ws c => exact Laws.TableMatch.rspWords03 u ws c
  | rspEcho05 u a v c => exact Laws.TableMatch.rspEcho05 u a v c
  | rspEcho06 u a v c => exact Laws.TableMatch.rspEcho06 u a v c
  | rspWriteMulti10 u p c => exact Laws.TableMatch.rspWriteMulti10 u p c
  | rspException u f p c => exact Laws.TableMatch.rspException u f p c

theorem space_encode (i : Instr) : (encode i).space = i.row.space := by
  obtain ⟨hspace, -⟩ := (TableRow.accepts_iff _ _).1 (row_accepts_encode i)
  exact hspace

/-- Settles O48: an item accepted by two rows makes the rows overlap, and no two rows of the table do. -/
theorem rowsOfOneSpaceDoNotOverlap : Obligations.RowsOfOneSpaceDoNotOverlap := by
  intro i j h
  exact eq_of_overlap (row_mem_tableRows i) (row_mem_tableRows j) (TableRow.overlap_of_accepts (row_accepts_encode i) h)

end Sys2Proof
end

section
/-! SUPPORT. Where the bytes of the request frames lie: the coil word and the fields of the multiple write (30_encoding.md R55, R57, R64). -/

namespace Sys2Proof.Machine

theorem requestFrame_eq_cons (unit fn : Byte) (payload : List Byte) :
    requestFrame unit fn payload = unit :: fn :: (payload ++ trailerBytes (crc16 (requestBody unit fn payload))) :=
  requestFrame_eq unit fn payload

theorem hi8_ofNat {n : Nat} (h : n < 256) : hi8 (BitVec.ofNat 16 n) = 0 := by
  apply BitVec.eq_of_toNat_eq
  rw [hi8, BitVec.extractLsb'_toNat, BitVec.toNat_ofNat, Nat.shiftRight_eq_div_pow]
  change n % 2 ^ 16 / 2 ^ 8 % 2 ^ 8 = 0
  omega

theorem lo8_ofNat (n : Nat) : lo8 (BitVec.ofNat 16 n) = BitVec.ofNat 8 n := by
  apply BitVec.eq_of_toNat_eq
  rw [lo8, BitVec.extractLsb'_toNat, BitVec.toNat_ofNat, BitVec.toNat_ofNat, Nat.shiftRight_zero]
  omega

/-- Word `j` of a sequence lies at bytes `2j` and `2j + 1`, high byte first, whatever follows the sequence. -/
theorem bytesOfWords_append_getElem? {vs : List Word16} {j : Nat} {v : Word16} (rest : List Byte) (h : vs[j]? = some v) :
    (bytesOfWords vs ++ rest)[2 * j]? = some (hi8 v) ∧ (bytesOfWords vs ++ rest)[2 * j + 1]? = some (lo8 v) := by
  induction vs generalizing j with
  | nil => cases h
  | cons w ws ih =>
    cases j with
    | zero =>
      cases h
      exact ⟨rfl, rfl⟩
    | succ j => exact ih h

theorem multiplePayload_length (start : Word16) (values : List Word16) :
    (multiplePayload start values).length = 5 + 2 * values.length := by
  simp [multiplePayload, be16Bytes, bytesOfWords_length]
  omega

/-- The multiple-write request written out up to its values (30_encoding.md R57). -/
theorem requestFrame_multiplePayload (unit : Byte) (start : Word16) {values : List Word16} (h : values.length ≤ 127) :
    ∃ crc, requestFrame unit 0x10 (multiplePayload start values) =
      [unit, 0x10, hi8 start, lo8 start, 0x00, BitVec.ofNat 8 values.length, BitVec.ofNat 8 (2 * values.length)] ++
        (bytesOfWords values ++ trailerBytes crc) := by
  refine ⟨crc16 (requestBody unit 0x10 (multiplePayload start values)), ?_⟩
  rw [requestFrame_eq_cons]
  simp [multiplePayload, be16Bytes, hi8_ofNat (show values.length < 256 by omega), lo8_ofNat]

/-- Settles O32: the fixed fields are read off the frame written out, and value `j` off the bytes of the words after them. -/
theorem multipleWriteRequestLayout : Obligations.MultipleWriteRequestLayout := by
  intro unit start values hmax
  refine ⟨_, rfl, ?_, ?_⟩
  · rw [requestFrame_length, multiplePayload_length]
    omega
  have hright := trailerRight_requestFrame unit 0x10 (multiplePayload start values)
  obtain ⟨crc, hframe⟩ := requestFrame_multiplePayload unit start hmax
  rw [hframe] at hright ⊢
  refine ⟨rfl, rfl, rfl, rfl, rfl, rfl, ⟨_, rfl, ?_⟩, fun j v hv => ?_, hright⟩
  · rw [BitVec.toNat_ofNat]
    omega
  · obtain ⟨hhigh, hlow⟩ := bytesOfWords_append_getElem? (trailerBytes crc) hv
    rw [show 7 + 2 * j = 2 * j + 7 by omega, show 8 + 2 * j = 2 * j + 1 + 7 by omega]
    exact ⟨hhigh, hlow⟩

theorem be16Bytes_coilWord (v : Bool) : be16Bytes (coilWord v) = [if v then 0xFF else 0x00, 0x00] := by
  cases v <;> decide

/-- Settles O30: the coil word by its definition, and its two bytes as the second field of the 0x05 frame. -/
theorem coilWordIsFF00OrZero : Obligations.CoilWordIsFF00OrZero := by
  refine ⟨rfl, rfl, fun unit address v => ?_⟩
  rw [encode, requestFrame_eq_cons, twoWordPayload, be16Bytes_coilWord]
  exact ⟨_, _, rfl⟩

end Sys2Proof.Machine
end

section
/-! SUPPORT. Items that decode to no instruction: unused selectors and unpresentable items (30_encoding.md R67, 60_exceptions.md R198, 92_eei_decisions.md D6). -/

namespace Sys2Proof.Machine

theorem decodeCmd_unusedSelector {op : BitVec 4} (h : 0xB ≤ op.toNat) (operands : List Byte) :
    decodeCmd op operands = .rejected (.illegalOperation op) := by
  obtain rfl | rfl | rfl | rfl | rfl : op = 0xB ∨ op = 0xC ∨ op = 0xD ∨ op = 0xE ∨ op = 0xF := by
    revert op
    decide
  all_goals rfl

theorem runPresented_of_decode_rejected {p : Presented} {r : Reject} (h : decode p = .rejected r) (s : State) :
    runPresented p s = runRejected r p s := by
  simp only [runPresented, h]

/-- Settles O43: an unused selector decodes to nothing, and raising IllegalOperation on an idle client touches the result only. -/
theorem unusedSelectorsDeliverIllegalOperation : Obligations.UnusedSelectorsDeliverIllegalOperation := by
  intro s op operands rest hop hpresented hidle
  refine ⟨raise .illegalOperation { s with presented := rest }, ?_, overOffLink_deliver _ _, rfl, rfl⟩
  rw [step_of_presented hpresented,
    runPresented_of_decode_rejected (p := .cmd op operands) (decodeCmd_unusedSelector hop operands)]
  exact whenIdle_idle _ hidle

/-- Settles O45: the step answers these two rejections by name. -/
theorem unpresentableItemsAreRefused : Obligations.UnpresentableItemsAreRefused := by
  intro s p rest hpresented
  rw [step_of_presented hpresented]
  exact ⟨fun op h => runPresented_of_decode_rejected h _, fun h => runPresented_of_decode_rejected h _⟩

end Sys2Proof.Machine
end

section
/-! SUPPORT. Received bytes: a response row is the receiving half of the exchange in flight, and so are bytes of no row (30_encoding.md R58 to R62, R66; logs 10, 20). -/

namespace Sys2Proof.Machine

theorem exec_of_encode_eq_rsp {i : Instr} {frame : List Byte} (h : encode i = .rsp frame) (s : State) :
    exec i s = receiveRow frame s := by
  have hspace : Space.rsp = i.row.space := (congrArg Presented.space h).symm.trans (space_encode i)
  cases i with
  | rspBits01 | rspBits02 | rspWords03 | rspEcho05 | rspEcho06 | rspWriteMulti10 | rspException =>
    obtain rfl := Presented.rsp.inj h
    rfl
  | _ => nomatch hspace

theorem decodeBitsResponse_eq_rejected {payload : List Byte} {mk : List Byte → Instr} {r : Reject}
    (h : decodeBitsResponse payload mk = .rejected r) : r = .noResponseRow := by
  unfold decodeBitsResponse at h
  split at h
  · split_ifs at h
    exact (Decoded.rejected.inj h).symm
  · exact (Decoded.rejected.inj h).symm

theorem decodeWordsResponse_eq_rejected {payload : List Byte} {mk : List Word16 → Instr} {r : Reject}
    (h : decodeWordsResponse payload mk = .rejected r) : r = .noResponseRow := by
  unfold decodeWordsResponse at h
  split at h
  · split at h
    · split_ifs at h
      exact (Decoded.rejected.inj h).symm
    · exact (Decoded.rejected.inj h).symm
  · exact (Decoded.rejected.inj h).symm

theorem decodeEchoResponse_eq_rejected {payload : List Byte} {mk : Word16 → Word16 → Instr} {r : Reject}
    (h : decodeEchoResponse payload mk = .rejected r) : r = .noResponseRow := by
  unfold decodeEchoResponse at h
  split at h
  · cases h
  · exact (Decoded.rejected.inj h).symm

theorem decodeResponseBody_eq_rejected {unit fn : Byte} {payload : List Byte} {crc : Word16} {r : Reject}
    (h : decodeResponseBody unit fn payload crc = .rejected r) : r = .noResponseRow := by
  unfold decodeResponseBody at h
  split_ifs at h
  · exact decodeBitsResponse_eq_rejected h
  · exact decodeBitsResponse_eq_rejected h
  · exact decodeWordsResponse_eq_rejected h
  · exact decodeEchoResponse_eq_rejected h
  · exact decodeEchoResponse_eq_rejected h
  · exact (Decoded.rejected.inj h).symm
  · exact (Decoded.rejected.inj h).symm

/-- Received bytes are rejected in one way only: they have no response row. -/
theorem decodeResponse_eq_rejected {frame : List Byte} {r : Reject} (h : decodeResponse frame = .rejected r) :
    r = .noResponseRow := by
  unfold decodeResponse at h
  split at h
  · split at h
    · exact decodeResponseBody_eq_rejected h
    · exact (Decoded.rejected.inj h).symm
  · exact (Decoded.rejected.inj h).symm

/-- Bytes presented as a response reach `receiveRow`, whether they have a row or not. -/
theorem runPresented_rsp (frame : List Byte) (s : State) : runPresented (.rsp frame) s = receiveRow frame s := by
  cases hdecode : decode (.rsp frame) with
  | instr i =>
    obtain ⟨-, hencode⟩ := encodeOfDecodeIsTheItem _ i hdecode
    rw [runPresented_of_decode_instr hdecode, exec_of_encode_eq_rsp hencode]
  | rejected r =>
    obtain rfl := decodeResponse_eq_rejected hdecode
    exact runPresented_of_decode_rejected hdecode s

theorem answerResult_of_invalid {bytes : List Byte} {f : Failure} (p : Purpose) (request : Option (List Byte))
    (h : validate bytes = some f) : answerResult p request bytes = .failed f := by
  simp only [answerResult, h]

theorem answerResult_of_valid {bytes : List Byte} (p : Purpose) (request : Option (List Byte))
    (h : validate bytes = none) : answerResult p request bytes = interpret p request bytes := by
  simp only [answerResult, h]

/-- The bytes have answered the request in flight: the validator's failure or the waiting operation's reading, read and close recorded, everything else over. -/
def AnswersRequest (s t : State) (purpose : Purpose) (bytes : List Byte) : Prop :=
  Over s t ∧ t.conn = .closed ∧ t.link = linkAfter s.link 0 0 0 [.read bytes, .closed] ∧
    (∀ f, validate bytes = some f → t.result = some (.failed f)) ∧
    (validate bytes = none → t.result = some (interpret purpose s.txbuf bytes))

theorem receive_answersRequest (p : Purpose) (bytes : List Byte) (s : State) : AnswersRequest s (receive p bytes s) p bytes := by
  have hresult : (receive p bytes s).result = some (answerResult p s.txbuf bytes) := by rw [receive_eq]
  refine ⟨over_receive p bytes (.refl s), by rw [receive_eq], receive_linkAfter p bytes s, fun f hf => ?_, fun hvalid => ?_⟩
  · rw [hresult, answerResult_of_invalid p s.txbuf hf]
  · rw [hresult, answerResult_of_valid p s.txbuf hvalid]

/-- What one read can deliver is received whole (30_encoding.md R51). -/
theorem length_le_rxMax_of_encode_eq_rsp {i : Instr} {frame : List Byte} (h : encode i = .rsp frame) (hwf : i.wellFormed = true) :
    frame.length ≤ rxMax := by
  have hdecode : decodeResponse frame = .instr i := by
    rw [← decodeOfEncodeIsTheInstruction i hwf, h, decode]
  obtain ⟨unit, fn, payload, crc, hlength, rfl, -⟩ := decodeResponse_eq_instr hdecode
  rwa [responseFrame, withTrailer_length]

/-- Settles O37: a well-formed response row receives its whole frame for the request in flight. -/
theorem responseRowsAnswerTheRequestInFlight : Obligations.ResponseRowsAnswerTheRequestInFlight := by
  intro s i frame purpose hencode hwf hinFlight
  refine ⟨receive purpose frame s, ?_, receive_answersRequest purpose frame s⟩
  rw [exec_of_encode_eq_rsp hencode, receiveRow_inFlight frame hinFlight,
    List.take_of_length_le (length_le_rxMax_of_encode_eq_rsp hencode hwf)]

/-- Settles O44: the step receives the first 256 bytes for the request in flight. -/
theorem anyReceivedBytesReachTheValidator : Obligations.AnyReceivedBytesReachTheValidator := by
  intro s frame rest purpose hpresented hinFlight
  refine ⟨receive purpose (frame.take 256) { s with presented := rest }, ?_, receive_answersRequest purpose _ _⟩
  rw [step_of_presented hpresented, runPresented_rsp]
  exact receiveRow_inFlight frame hinFlight

end Sys2Proof.Machine
end

section
/-! SUPPORT. A request row is the sending half of its operation's exchange (30_encoding.md R54 to R57, 44_transaction.md R170; logs 9, 11, 25). -/

namespace Sys2Proof.Machine

/-- What the answer to each request row is for; the table of a 0x03 read is free (log 11). -/
def RowPurpose (i : Instr) (purpose : Purpose) : Prop :=
  (∀ u a q, i = .reqRead01 u a q → purpose = .bits a q) ∧
  (∀ u a q, i = .reqRead02 u a q → purpose = .bits a q) ∧
  (∀ u a q, i = .reqRead03 u a q → ∃ table, purpose = .words table a q) ∧
  (∀ u a v, i = .reqWriteCoil05 u a v → purpose = .echo) ∧
  (∀ u a v, i = .reqWriteReg06 u a v → purpose = .echo) ∧
  (∀ u a vs, i = .reqWriteMulti10 u a vs → purpose = .echoPrefix)

/-- A request row on an idle client sends the frame it stands for. -/
theorem exec_of_encode_eq_req {s : State} {i : Instr} {frame : List Byte} (h : encode i = .req frame)
    (hwf : i.wellFormed = true) (hidle : s.exchange = none) :
    ∃ p unit fn payload, frame = requestFrame unit fn payload ∧ RowPurpose i p ∧
      exec i s = .next (sendRow p unit fn payload s) := by
  have hspace : Space.req = i.row.space := (congrArg Presented.space h).symm.trans (space_encode i)
  cases i with
  | reqRead01 u a q => exact ⟨_, _, _, _, (Presented.req.inj h).symm, by simp [RowPurpose], exec_reqRead01 hidle u a q⟩
  | reqRead02 u a q => exact ⟨_, _, _, _, (Presented.req.inj h).symm, by simp [RowPurpose], exec_reqRead02 hidle u a q⟩
  | reqRead03 u a q => exact ⟨_, _, _, _, (Presented.req.inj h).symm, by simp [RowPurpose], exec_reqRead03 hidle u a q⟩
  | reqWriteCoil05 u a v => exact ⟨_, _, _, _, (Presented.req.inj h).symm, by simp [RowPurpose], exec_reqWriteCoil05 hidle u a v⟩
  | reqWriteReg06 u a v => exact ⟨_, _, _, _, (Presented.req.inj h).symm, by simp [RowPurpose], exec_reqWriteReg06 hidle u a v⟩
  | reqWriteMulti10 u a vs =>
    exact ⟨_, _, _, _, (Presented.req.inj h).symm, by simp [RowPurpose], exec_reqWriteMulti10 hidle u a vs (of_decide_eq_true hwf)⟩
  | _ => nomatch hspace

theorem sendRow_sent {s : State} {payload : List Byte} (p : Purpose) (unit fn : Byte) (hfits : fitsTx s payload = true)
    (hopen : openAnswer s = .ok) (hwrite : writeAnswer s = .ok) :
    sendRow p unit fn payload s = { afterWrite unit fn payload s with exchange := some p, result := none, crcGen := none } := by
  rcases sendRow_cases p unit fn payload s with ⟨h, -⟩ | ⟨e, -, h, -⟩ | ⟨e, -, -, h, -⟩ | ⟨-, -, -, h⟩
  · exact nomatch hfits.symm.trans h
  · exact nomatch hopen.symm.trans h
  · exact nomatch hwrite.symm.trans h
  · exact h

/-- Settles O35: a request row that fits and is let through leaves `afterWrite` of its frame, waiting for its own answer. -/
theorem requestRowsPutTheirFrameInFlight : Obligations.RequestRowsPutTheirFrameInFlight := by
  intro s i frame hencode hwf hidle hcap hopen hwrite
  obtain ⟨p, unit, fn, payload, rfl, hpurpose, hexec⟩ := exec_of_encode_eq_req hencode hwf hidle
  have hfits : fitsTx s payload = true := by
    rw [fitsTx_iff]
    simpa only [requestFrame_length] using hcap
  obtain ⟨hconfig, hpresented⟩ := kept_afterWrite unit fn payload s
  rw [sendRow_sent p unit fn hfits hopen hwrite] at hexec
  exact ⟨_, p, hexec, hconfig, hpresented, rfl, rfl, rfl, rfl, rfl, rfl, afterWrite_linkAfter unit fn payload s, rfl, hpurpose⟩

end Sys2Proof.Machine
end

section
/-! SUPPORT. Defaults of the reads filled in, and frames written out (30_encoding.md R65, 95_test_vectors.md). -/

namespace Sys2Proof.Machine

/-! Each read runs as the read with its start address and its quantity both given. -/

theorem exec_readStatus_both (r : ReadOperands) (s : State) :
    exec (.readStatus r) s = exec (.readStatus (.both (readStart r) (readQuantity statusQuantity r))) s := rfl

theorem exec_readAlarms_both (r : ReadOperands) (s : State) :
    exec (.readAlarms r) s = exec (.readAlarms (.both (readStart r) (readQuantity alarmsQuantity r))) s := rfl

theorem exec_readSensors_both (r : ReadOperands) (s : State) :
    exec (.readSensors r) s = exec (.readSensors (.both (readStart r) (readQuantity sensorsQuantity r))) s := rfl

theorem exec_readConfiguration_both (r : ReadOperands) (s : State) :
    exec (.readConfiguration r) s =
      exec (.readConfiguration (.both (readStart r) (readQuantity configurationQuantity r))) s := rfl

/-- Settles O25: the start address and the quantity of the shortened forms are the defaults. -/
theorem readDefaultsFillIn : Obligations.ReadDefaultsFillIn := fun s a =>
  ⟨exec_readStatus_both .defaults s, exec_readAlarms_both .defaults s, exec_readSensors_both .defaults s,
    exec_readConfiguration_both .defaults s, exec_readStatus_both (.start a) s, exec_readAlarms_both (.start a) s,
    exec_readSensors_both (.start a) s, exec_readConfiguration_both (.start a) s⟩

/-- A frame whose trailer, low byte first, is the CRC of its body decodes as that body (30_encoding.md R50). -/
theorem decode_req_of_crc16 {unit fn low high : Byte} {payload : List Byte}
    (h : crc16 (requestBody unit fn payload) = trailerWord low high) :
    decode (.req (unit :: fn :: (payload ++ [low, high]))) = decodeRequestBody unit fn payload := by
  rw [← decodeRequest_requestFrame, requestFrame_eq_cons, h, trailerBytes_trailerWord, decode]

/-- Settles O49: the trailers of the three requests are their CRCs, and the rest of each item is read off its bytes. -/
theorem writtenOutWordsDecode : Obligations.WrittenOutWordsDecode := by
  obtain ⟨hread, hcoil, hmultiple⟩ :
      crc16 (requestBody 0x01 0x03 [0x00, 0x00, 0x00, 0x0A]) = trailerWord 0xC5 0xCD ∧
      crc16 (requestBody 0x01 0x05 [0x00, 0x03, 0xFF, 0x00]) = trailerWord 0x7C 0x3A ∧
      crc16 (requestBody 0x01 0x10 [0x00, 0x06, 0x00, 0x02, 0x04, 0x00, 0xC8, 0x01, 0x2C]) = trailerWord 0xF2 0x36 := by
    simp [requestBody, trailerWord, crc16, crcFrom, crcByteStep, crcBitSteps, crcBitStep, crcAbsorb, crcInit, crcPoly]
  exact ⟨rfl, rfl, rfl, (decode_req_of_crc16 hread).trans rfl, (decode_req_of_crc16 hcoil).trans rfl,
    (decode_req_of_crc16 hmultiple).trans rfl, rfl, rfl, rfl⟩

end Sys2Proof.Machine
end

section
/-! SUPPORT. Absorbing a byte and the bit step, in bytes and in bits (40_crc.md R82, R83). -/

namespace Sys2Proof.Machine

theorem eq_iff_lo8_hi8 {v w : Word16} : v = w ↔ lo8 v = lo8 w ∧ hi8 v = hi8 w := by
  refine ⟨by rintro rfl; exact ⟨rfl, rfl⟩, fun ⟨hlo, hhi⟩ => ?_⟩
  rw [← be16_hi8_lo8 v, ← be16_hi8_lo8 w, hlo, hhi]

@[simp] theorem lo8_xor (v w : Word16) : lo8 (v ^^^ w) = lo8 v ^^^ lo8 w := BitVec.extractLsb'_xor

@[simp] theorem hi8_xor (v w : Word16) : hi8 (v ^^^ w) = hi8 v ^^^ hi8 w := BitVec.extractLsb'_xor

@[simp] theorem lo8_zero : lo8 0#16 = 0#8 := rfl

@[simp] theorem hi8_zero : hi8 0#16 = 0#8 := rfl

theorem setWidth_eq_be16 (b : Byte) : b.setWidth 16 = be16 0#8 b :=
  BitVec.setWidth_eq_append (by decide)

theorem ushiftRight_eight_eq_setWidth (c : Word16) : c >>> 8 = (hi8 c).setWidth 16 := by
  rw [BitVec.ushiftRight_eq_extractLsb'_of_lt (by decide), setWidth_eq_be16]
  rfl

theorem setWidth_shiftLeft_eight (b : Byte) : b.setWidth 16 <<< 8 = be16 b 0#8 := by
  rw [BitVec.shiftLeft_eq_concat_of_lt (by decide), setWidth_eq_be16]
  exact congrArg (be16 · 0#8) (lo8_be16 0#8 b)

@[simp] theorem lo8_crcAbsorb (c : Word16) (b : Byte) : lo8 (crcAbsorb c b) = lo8 c ^^^ b := by
  rw [crcAbsorb, lo8_xor, setWidth_eq_be16, lo8_be16]

@[simp] theorem hi8_crcAbsorb (c : Word16) (b : Byte) : hi8 (crcAbsorb c b) = hi8 c := by
  rw [crcAbsorb, hi8_xor, setWidth_eq_be16, hi8_be16, BitVec.xor_zero]

/-- Settles O2, by the two bytes of what is absorbed. -/
theorem crcAbsorbTouchesTheLowByteOnly : Obligations.CrcAbsorbTouchesTheLowByteOnly :=
  fun c b => ⟨rfl, lo8_crcAbsorb c b, hi8_crcAbsorb c b⟩

/-- The shift clears bit 15 and the polynomial has it set, so it receives the bit that dropped out. -/
theorem crcBitStep_getLsbD_fifteen (c : Word16) : (crcBitStep c).getLsbD 15 = c.getLsbD 0 := by
  have hpoly : crcPoly.getLsbD 15 = true := rfl
  rw [crcBitStep_getLsbD, hpoly, Bool.and_true, BitVec.getLsbD_of_ge c 16 (le_refl 16), Bool.false_xor]

theorem crcBitStep_of_lsb_true {c : Word16} (h : c.getLsbD 0 = true) : crcBitStep c = (c >>> 1) ^^^ crcPoly := if_pos h

theorem crcBitStep_of_lsb_false {c : Word16} (h : c.getLsbD 0 = false) : crcBitStep c = c >>> 1 := if_neg (Bool.eq_false_iff.1 h)

/-- Settles O3: the two branches of the bit step, and the shift bit by bit. -/
theorem crcBitStepShiftsThenXors : Obligations.CrcBitStepShiftsThenXors := by
  refine ⟨fun c => ⟨?_, fun i _ => ?_, crcBitStep_of_lsb_true, crcBitStep_of_lsb_false, crcBitStep_getLsbD_fifteen c⟩,
    by decide, by decide, by decide, by decide, by decide, by decide⟩
  · rw [BitVec.getLsbD_ushiftRight]
    exact BitVec.getLsbD_of_ge c (1 + 15) (le_refl 16)
  · rw [BitVec.getLsbD_ushiftRight, Nat.add_comm]

end Sys2Proof.Machine
end

section
/-! SUPPORT. The operation CRC16: what it delivers and leaves (40_crc.md R80, R84, R85, R88; 20_memory.md R38). -/

namespace Sys2Proof.Machine

/-- Delivering a result discards the generator's registers (10_state.md R24). -/
@[simp] theorem deliver_runCrc (r : Result) (bytes : List Byte) (s : State) : deliver r (runCrc bytes s) = deliver r s := rfl

/-- CRC16 delivers the CRC of its operand and does nothing else. -/
theorem exec_crc16_eq_deliver {s : State} (h : s.exchange = none) (bytes : List Byte) :
    exec (.crc16 bytes) s = .next (deliver (.ok (.crcOut (crc16 bytes))) s) := by
  rw [exec_crc16 h, CrcGen.run_crc, deliver_runCrc]

/-- Settles O1: the fold of R84 is `crc16` with the byte step written out. -/
theorem crc16DeliversTheBytewiseFold : Obligations.Crc16DeliversTheBytewiseFold :=
  fun s bytes h => ⟨_, exec_crc16_eq_deliver h bytes, overOffLink_deliver _ s, rfl⟩

/-- Settles O4: with no bytes the fold and the registers are at their start. -/
theorem crcOfTheEmptyInputIsFFFF : Obligations.CrcOfTheEmptyInputIsFFFF :=
  ⟨rfl, rfl, rfl, rfl, fun _ h => ⟨_, exec_crc16_eq_deliver h [], rfl⟩⟩

end Sys2Proof.Machine
end

section
/-! SUPPORT. The bit steps are a linear bijection of the accumulator, and a byte with zeros below it is only shifted down; the table form and the residue follow (40_crc.md R86, R89). -/

namespace Sys2Proof.Machine

@[simp] theorem crcBitSteps_zero (n : Nat) : crcBitSteps n 0#16 = 0#16 := by
  induction n with
  | zero => rfl
  | succ n ih => exact ih

/-- Bit 15 of the result is the bit that dropped out, so nothing but 0 steps to 0 (40_crc.md R87). -/
theorem eq_zero_of_crcBitStep_eq_zero {c : Word16} (h : crcBitStep c = 0#16) : c = 0#16 := by
  have hlsb : c.getLsbD 0 = false := by rw [← crcBitStep_getLsbD_fifteen, h]; rfl
  apply BitVec.eq_of_getLsbD_eq
  intro i _
  cases i with
  | zero => exact hlsb
  | succ i =>
    have hbit := crcBitStep_getLsbD c i
    rw [h, hlsb, Bool.false_and, Bool.xor_false] at hbit
    simpa using hbit.symm

theorem crcBitSteps_eq_zero_iff {n : Nat} {c : Word16} : crcBitSteps n c = 0#16 ↔ c = 0#16 := by
  refine ⟨fun h => ?_, by rintro rfl; exact crcBitSteps_zero n⟩
  induction n generalizing c with
  | zero => exact h
  | succ n ih => exact eq_zero_of_crcBitStep_eq_zero (ih h)

theorem crcBitSteps_inj {n : Nat} {c d : Word16} : crcBitSteps n c = crcBitSteps n d ↔ c = d := by
  rw [← BitVec.xor_eq_zero_iff, ← crcBitSteps_xor, crcBitSteps_eq_zero_iff, BitVec.xor_eq_zero_iff]

theorem crcBitStep_shiftLeft_one {c : Word16} (h : c.getLsbD 15 = false) : crcBitStep (c <<< 1) = c := by
  rw [crcBitStep_of_lsb_false (by simp)]
  apply BitVec.eq_of_getLsbD_eq
  intro i hi
  by_cases h15 : i = 15
  · rw [h15, h, BitVec.getLsbD_ushiftRight]
    exact BitVec.getLsbD_of_ge _ (1 + 15) (le_refl 16)
  · have hi1 : 1 + i < 16 := by omega
    rw [BitVec.getLsbD_ushiftRight, BitVec.getLsbD_shiftLeft]
    simp [hi1]

/-- A byte shifted up by `n ≤ 8` drops only zeros, so `n` bit steps shift it down again. -/
theorem crcBitSteps_shiftLeft (b : Byte) {n : Nat} (hn : n ≤ 8) : crcBitSteps n (b.setWidth 16 <<< n) = b.setWidth 16 := by
  induction n with
  | zero => simp [crcBitSteps]
  | succ n ih =>
    have htop : (b.setWidth 16 <<< n).getLsbD 15 = false := by
      have h8 : 8 ≤ 15 - n := by omega
      simp [BitVec.getLsbD_of_ge b (15 - n) h8]
    rw [crcBitSteps, BitVec.shiftLeft_add, crcBitStep_shiftLeft_one htop, ih (by omega)]

theorem crcBitSteps_be16_zero (b : Byte) : crcBitSteps 8 (be16 b 0#8) = b.setWidth 16 := by
  rw [← setWidth_shiftLeft_eight, crcBitSteps_shiftLeft b (le_refl 8)]

/-- The high byte is shifted down and the low byte goes through the table (40_crc.md R89). -/
theorem crcByteStep_eq_table (c : Word16) (b : Byte) : crcByteStep c b = (c >>> 8) ^^^ crcTableEntry (lo8 c ^^^ b) := by
  have hsplit : crcAbsorb c b = be16 (hi8 c) 0#8 ^^^ crcAbsorb 0#16 (lo8 c ^^^ b) := by
    rw [eq_iff_lo8_hi8]
    simp [lo8_be16, hi8_be16]
  rw [crcByteStep, hsplit, crcBitSteps_xor, crcBitSteps_be16_zero, ← ushiftRight_eight_eq_setWidth]
  rfl

/-- Settles O7: the two folds have the same step. -/
theorem crcTableFormComputesTheSame : Obligations.CrcTableFormComputesTheSame := by
  refine ⟨fun bytes => ?_, by decide, by decide, by decide, by decide, by decide, by decide⟩
  exact congrArg (List.foldl · crcInit bytes) (funext₂ fun c b => (crcByteStep_eq_table c b).symm)

theorem crcByteStep_eq_zero_iff {c : Word16} {b : Byte} : crcByteStep c b = 0#16 ↔ c = b.setWidth 16 := by
  rw [crcByteStep, crcBitSteps_eq_zero_iff, crcAbsorb, BitVec.xor_eq_zero_iff]

/-- Only absorbing the low byte leaves a byte, which is then the high byte (40_crc.md R86). -/
theorem crcByteStep_eq_setWidth_iff {c : Word16} {x y : Byte} : crcByteStep c x = y.setWidth 16 ↔ x = lo8 c ∧ y = hi8 c := by
  rw [crcByteStep, ← crcBitSteps_be16_zero, crcBitSteps_inj, eq_iff_lo8_hi8, lo8_crcAbsorb, hi8_crcAbsorb, lo8_be16, hi8_be16]
  exact and_congr (BitVec.xor_eq_zero_iff.trans eq_comm) eq_comm

theorem crc16_append_two_eq_zero_iff {m : List Byte} {x y : Byte} :
    crc16 (m ++ [x, y]) = 0#16 ↔ x = lo8 (crc16 m) ∧ y = hi8 (crc16 m) := by
  rw [crc16_append, crcFrom_cons, crcFrom_cons, crcFrom_nil, crcByteStep_eq_zero_iff, crcByteStep_eq_setWidth_iff]

theorem crc16_withTrailer_eq_zero_iff {body : List Byte} {crc : Word16} : crc16 (withTrailer body crc) = 0#16 ↔ crc16 body = crc := by
  rw [withTrailer, trailerBytes, crc16_append_two_eq_zero_iff, ← eq_iff_lo8_hi8, eq_comm]

/-- The whole-frame test and the trailer comparison accept the same frames (40_crc.md R86). -/
theorem crc16_eq_zero_iff_trailerRight {frame : List Byte} (h : 2 ≤ frame.length) : crc16 frame = 0#16 ↔ trailerRight frame = true := by
  obtain ⟨body, crc, hsplit⟩ := splitTrailer_isSome h
  have hframe : frame = withTrailer body crc := splitTrailer_eq_some_iff.1 hsplit
  rw [hframe, trailerRight_withTrailer, beq_iff_eq, crc16_withTrailer_eq_zero_iff]

/-- Settles O5: two more bytes take the accumulator to 0 exactly when they are its own two bytes. -/
theorem crcResidueIsZero : Obligations.CrcResidueIsZero :=
  ⟨fun _ => crc16_append_two_eq_zero_iff.2 ⟨rfl, rfl⟩, fun _ _ _ => crc16_append_two_eq_zero_iff.1,
    fun _ => crc16_eq_zero_iff_trailerRight⟩

end Sys2Proof.Machine
end

section
/-! SUPPORT. CRC16 is affine, and one flipped bit changes it (40_crc.md R87). -/

namespace Sys2Proof.Machine

theorem crcByteStep_xor (c d : Word16) (a b : Byte) : crcByteStep (c ^^^ d) (a ^^^ b) = crcByteStep c a ^^^ crcByteStep d b := by
  have habsorb : crcAbsorb (c ^^^ d) (a ^^^ b) = crcAbsorb c a ^^^ crcAbsorb d b := by
    rw [eq_iff_lo8_hi8]
    simp only [lo8_crcAbsorb, hi8_crcAbsorb, lo8_xor, hi8_xor, and_true]
    ac_rfl
  rw [crcByteStep, habsorb, crcBitSteps_xor]
  rfl

theorem crcFrom_zipWith_xor (c d : Word16) {a e : List Byte} (h : a.length = e.length) :
    crcFrom (c ^^^ d) (List.zipWith (· ^^^ ·) a e) = crcFrom c a ^^^ crcFrom d e := by
  induction a generalizing c d e with
  | nil =>
    cases e with
    | nil => rfl
    | cons => cases h
  | cons x xs ih =>
    cases e with
    | nil => cases h
    | cons y ys => rw [List.zipWith_cons_cons, crcFrom_cons, crcByteStep_xor, ih _ _ (Nat.succ.inj h)]; rfl

theorem crc16_zipWith_xor {a e : List Byte} (h : a.length = e.length) :
    crc16 (List.zipWith (· ^^^ ·) a e) = crc16 a ^^^ crcFrom 0#16 e := by
  rw [crc16, crc16, ← crcFrom_zipWith_xor crcInit 0#16 h, BitVec.xor_zero]

@[simp] theorem crcByteStep_zero_zero : crcByteStep 0#16 0#8 = 0#16 := crcByteStep_eq_zero_iff.2 rfl

/-- Zero bytes never bring a non-zero accumulator to 0 (40_crc.md R87). -/
theorem crcFrom_replicate_zero_ne_zero {c : Word16} (hc : c ≠ 0#16) (n : Nat) : crcFrom c (List.replicate n 0#8) ≠ 0#16 := by
  induction n generalizing c with
  | zero => exact hc
  | succ n ih =>
    rw [List.replicate_succ, crcFrom_cons]
    exact ih (mt crcByteStep_eq_zero_iff.1 hc)

@[simp] theorem flipBit_length (bytes : List Byte) (i k : Nat) : (flipBit bytes i k).length = bytes.length :=
  List.length_modify ..

@[simp] theorem flipBit_cons_zero (b : Byte) (bs : List Byte) (k : Nat) : flipBit (b :: bs) 0 k = (b ^^^ (1#8 <<< k)) :: bs := rfl

@[simp] theorem flipBit_cons_succ (b : Byte) (bs : List Byte) (i k : Nat) : flipBit (b :: bs) (i + 1) k = b :: flipBit bs i k := rfl

theorem one_shiftLeft_ne_zero {k : Nat} (hk : k < 8) : 1#8 <<< k ≠ 0#8 := by
  intro h
  have hbit : (1#8 <<< k).getLsbD k = true := by simp [hk]
  rw [h, BitVec.getLsbD_zero] at hbit
  cases hbit

/-- The accumulator is 0 up to the byte that holds the 1 bit, and non-zero from there on (40_crc.md R87). -/
theorem crcFrom_zero_flipBit_ne_zero {n i k : Nat} (hi : i < n) (hk : k < 8) :
    crcFrom 0#16 (flipBit (List.replicate n 0#8) i k) ≠ 0#16 := by
  induction n generalizing i with
  | zero => omega
  | succ n ih =>
    rw [List.replicate_succ]
    cases i with
    | zero =>
      rw [flipBit_cons_zero, BitVec.zero_xor, crcFrom_cons]
      have hstep : crcByteStep 0#16 (1#8 <<< k) ≠ 0#16 := by
        rw [Ne, crcByteStep_eq_zero_iff, setWidth_eq_be16, eq_iff_lo8_hi8, lo8_be16]
        exact fun ⟨hlo, _⟩ => one_shiftLeft_ne_zero hk hlo.symm
      exact crcFrom_replicate_zero_ne_zero hstep n
    | succ i =>
      rw [flipBit_cons_succ, crcFrom_cons, crcByteStep_zero_zero]
      exact ih (Nat.lt_of_succ_lt_succ hi)

theorem zipWith_xor_replicate_zero (m : List Byte) : List.zipWith (· ^^^ ·) m (List.replicate m.length 0#8) = m := by
  induction m with
  | nil => rfl
  | cons b bs ih => rw [List.length_cons, List.replicate_succ, List.zipWith_cons_cons, ih, BitVec.xor_zero]

/-- A flipped bit is an XOR with the sequence that has that one bit set. -/
theorem flipBit_eq_zipWith_xor (m : List Byte) (i k : Nat) :
    flipBit m i k = List.zipWith (· ^^^ ·) m (flipBit (List.replicate m.length 0#8) i k) := by
  induction m generalizing i with
  | nil => exact List.modify_nil ..
  | cons b bs ih =>
    rw [List.length_cons, List.replicate_succ]
    cases i with
    | zero => rw [flipBit_cons_zero, flipBit_cons_zero, BitVec.zero_xor, List.zipWith_cons_cons, zipWith_xor_replicate_zero]
    | succ i => rw [flipBit_cons_succ, flipBit_cons_succ, List.zipWith_cons_cons, ← ih, BitVec.xor_zero]

theorem crc16_flipBit (m : List Byte) (i k : Nat) :
    crc16 (flipBit m i k) = crc16 m ^^^ crcFrom 0#16 (flipBit (List.replicate m.length 0#8) i k) := by
  rw [flipBit_eq_zipWith_xor, crc16_zipWith_xor (by simp)]

theorem crc16_flipBit_ne {m : List Byte} {i k : Nat} (hi : i < m.length) (hk : k < 8) : crc16 (flipBit m i k) ≠ crc16 m := by
  rw [crc16_flipBit, Ne, xor_left_eq_self_iff]
  exact crcFrom_zero_flipBit_ne_zero hi hk

theorem length_of_trailerRight {frame : List Byte} (h : trailerRight frame = true) : 2 ≤ frame.length := by
  obtain ⟨body, rfl⟩ := (trailerRight_iff frame).1 h
  rw [withTrailer_length]
  omega

/-- By the residue: the flip takes the CRC of the whole frame away from 0. -/
theorem trailerRight_flipBit {frame : List Byte} {i k : Nat} (h : trailerRight frame = true) (hi : i < frame.length) (hk : k < 8) :
    trailerRight (flipBit frame i k) = false := by
  have hlength := length_of_trailerRight h
  have hcrc : crc16 frame = 0#16 := (crc16_eq_zero_iff_trailerRight hlength).2 h
  rw [← Bool.not_eq_true, ← crc16_eq_zero_iff_trailerRight (by rwa [flipBit_length]), ← hcrc]
  exact crc16_flipBit_ne hi hk

/-- Settles O6: affinity turns a flip into the CRC, from 0, of a single 1 bit, which is not zero. -/
theorem crcCatchesEverySingleBit : Obligations.CrcCatchesEverySingleBit :=
  ⟨fun _ _ => crc16_zipWith_xor, fun _ _ _ => crcFrom_zero_flipBit_ne_zero, fun _ _ _ => crc16_flipBit_ne,
    fun _ _ _ => trailerRight_flipBit⟩

end Sys2Proof.Machine
end

section
/-! SUPPORT. BUILD_REQUEST and VALIDATE_RESPONSE: each is the delivery of one result, and that result on every frame (41_frame_codec.md R100 to R114). -/

namespace Sys2Proof.Machine

/-! ### BUILD_REQUEST -/

/-- Delivering a result discards TXBUF and the generator's registers (10_state.md R24). -/
@[simp] theorem deliver_loadTx (r : Result) (unit fn : Byte) (payload : List Byte) (s : State) :
    deliver r (loadTx unit fn payload s) = deliver r s := rfl

/-- A request that fits TX_CAP is handed over and nothing else happens (41_frame_codec.md R100). -/
theorem exec_buildRequest_eq_deliver {s : State} {payload : List Byte} (h : s.exchange = none) (unit fn : Byte)
    (hfits : fitsTx s payload = true) :
    exec (.buildRequest unit fn payload) s = .next (deliver (.ok (.outFrame (requestFrame unit fn payload))) s) := by
  rw [exec_buildRequest_fits h unit fn payload hfits, deliver_loadTx]

/-- A finite TX_CAP below `N + 4` is too small for `N` payload bytes (41_frame_codec.md R100, 10_state.md R15). -/
theorem fitsTx_eq_false {s : State} {payload : List Byte} {cap : Nat} (hcap : s.txCap = some cap) (h : cap < payload.length + 4) :
    fitsTx s payload = false := by
  rw [← Bool.not_eq_true, fitsTx_iff]
  exact fun hfits => absurd (hfits cap hcap) (Nat.not_le.2 h)

theorem fitsTx_of_unbounded {s : State} (payload : List Byte) (hcap : s.txCap = none) : fitsTx s payload = true := by
  rw [fitsTx_iff, hcap]
  exact fun _ h => nomatch h

/-- Settles O8: the writes of R100 leave body and CRC, and what a finite TX_CAP says decides between the two results. -/
theorem buildRequestLaysTheFrameDown : Obligations.BuildRequestLaysTheFrameDown := by
  intro s unit fn payload hidle
  cases hfits : fitsTx s payload with
  | true =>
    refine ⟨_, exec_buildRequest_eq_deliver hidle unit fn hfits, overOffLink_deliver _ s, fun _ => ?_, fun cap hcap hlt => ?_⟩
    · exact congrArg (some <| Result.ok <| .outFrame ·) (requestFrame_eq_cons unit fn payload)
    · exact absurd hfits (Bool.eq_false_iff.1 (fitsTx_eq_false hcap hlt))
  | false =>
    refine ⟨_, exec_buildRequest_refused hidle unit fn payload hfits, overOffLink_deliver _ s, fun hcap => ?_, fun _ _ _ => rfl⟩
    exact absurd ((fitsTx_iff s payload).2 hcap) (Bool.eq_false_iff.1 hfits)

/-! ### The validator's result -/

theorem validationResult_of_validate_eq_none {frame : List Byte} (h : validate frame = none) :
    validationResult frame = .ok (.outFrame frame) := by
  simp only [validationResult, h]

theorem validationResult_of_validate_eq_some {frame : List Byte} {f : Failure} (h : validate frame = some f) :
    validationResult frame = .failed f := by
  simp only [validationResult, h]

/-- Check 1 (41_frame_codec.md R103). -/
theorem validate_of_length_eq_zero {frame : List Byte} (h : frame.length = 0) : validate frame = some .emptyResponse := by
  rw [validate, if_pos h]

/-- Check 2 (41_frame_codec.md R104). -/
theorem validate_of_length_lt {frame : List Byte} (hpos : 0 < frame.length) (h : frame.length < minFrame) :
    validate frame = some .frameTooShort := by
  rw [validate, if_neg hpos.ne', if_pos h]

/-- From four bytes on the trailer decides, then check 4 (41_frame_codec.md R105, R106). -/
theorem validate_of_long {frame : List Byte} (h : minFrame ≤ frame.length) :
    validate frame = if trailerRight frame then exceptionCheck frame else some .crcMismatch := by
  have hpos : 0 < frame.length := Nat.lt_of_lt_of_le (by decide) h
  rw [validate, if_neg hpos.ne', if_neg (Nat.not_lt.2 h)]

theorem validate_of_goodFrame {frame : List Byte} (h : GoodFrame frame) : validate frame = exceptionCheck frame := by
  obtain ⟨hlength, hright⟩ := h
  rw [validate_of_long hlength, if_pos hright]

theorem validate_of_trailerRight_eq_false {frame : List Byte} (hlength : minFrame ≤ frame.length) (h : trailerRight frame = false) :
    validate frame = some .crcMismatch := by
  rw [validate_of_long hlength, if_neg (Bool.eq_false_iff.1 h)]

/-! ### The frame format byte by byte -/

/-- Four bytes or more, written with the trailer's two bytes apart, in the frame format (30_encoding.md R50, 20_memory.md R33). -/
theorem frame_eq_responseFrame (unit fn low high : Byte) (payload : List Byte) :
    unit :: fn :: (payload ++ [low, high]) = responseFrame unit fn payload (trailerWord low high) := by
  rw [responseFrame, withTrailer, trailerBytes_trailerWord]
  rfl

/-- The byte check 4 takes for the code: with no payload it is the CRC's low byte (41_frame_codec.md R107). -/
theorem responseFrame_getElem?_two (unit fn : Byte) (payload : List Byte) (crc : Word16) :
    (responseFrame unit fn payload crc)[2]? = some (payload.headD (lo8 crc)) := by
  cases payload <;> rfl

theorem eq_trailerWord_iff {crc : Word16} {low high : Byte} :
    crc = trailerWord low high ↔ crc.toNat = low.toNat + 256 * high.toNat := by
  rw [← trailerWord_toNat, BitVec.toNat_inj]

/-- Settles O9: the length decides the first two checks; from four bytes on the frame is in the format, where the trailer and bit 7 decide. -/
theorem validateResponseMakesFourChecksInOrder : Obligations.ValidateResponseMakesFourChecksInOrder := by
  intro s frame expected hidle
  refine ⟨_, exec_validateResponse hidle frame expected, overOffLink_deliver _ s, fun hempty => ?_, fun hpos hshort => ?_, ?_⟩
  · exact congrArg some (validationResult_of_validate_eq_some (validate_of_length_eq_zero hempty))
  · exact congrArg some (validationResult_of_validate_eq_some (validate_of_length_lt hpos (Nat.lt_succ_of_le hshort)))
  · rintro unit fn low high payload rfl
    rw [frame_eq_responseFrame, Ne, ← eq_trailerWord_iff]
    have hchecks := validate_responseFrame unit fn payload (trailerWord low high)
    rw [requestBody] at hchecks
    refine ⟨fun hwrong => ?_, fun hright hclear => ?_, fun hright hset code hcode => ?_⟩
    · rw [if_neg hwrong] at hchecks
      exact congrArg some (validationResult_of_validate_eq_some hchecks)
    · rw [if_pos hright, hclear] at hchecks
      exact congrArg some (validationResult_of_validate_eq_none hchecks)
    · rw [responseFrame_getElem?_two] at hcode
      rw [if_pos hright, if_pos hset, Option.some.inj hcode] at hchecks
      exact congrArg some (validationResult_of_validate_eq_some hchecks)

/-- Settles O11: the operand is read by no clause of the operation (R109). -/
theorem expectedUnitIdIsIgnored : Obligations.ExpectedUnitIdIsIgnored := fun _ _ _ _ => rfl

/-! ### Building, then validating -/

/-- On a built frame only check 4 is left (41_frame_codec.md R111). -/
theorem validate_requestFrame (unit fn : Byte) (payload : List Byte) :
    validate (requestFrame unit fn payload) =
      if fn.getLsbD 7 then some (exceptionFailure (payload.headD (lo8 (crc16 (requestBody unit fn payload))))) else none := by
  rw [requestFrame_eq_responseFrame, validate_responseFrame, if_pos rfl]

/-- BODY leaves out exactly the last two bytes (41_frame_codec.md R108). -/
theorem frameBody_append_two (bytes : List Byte) (x y : Byte) : frameBody (bytes ++ [x, y]) = bytes := by
  rw [frameBody, List.length_append]
  exact List.take_left

theorem frameData_append_two (bytes : List Byte) (x y : Byte) : frameData (bytes ++ [x, y]) = bytes.drop 2 := by
  rw [frameData, frameBody_append_two]

theorem frameBody_requestFrame (unit fn : Byte) (payload : List Byte) :
    frameBody (requestFrame unit fn payload) = requestBody unit fn payload := by
  rw [requestFrame_eq, trailerBytes, frameBody_append_two]

/-- Settles O12: the built frame is in the format with its own CRC, so bit 7 alone decides. -/
theorem buildThenValidateRoundTrip : Obligations.BuildThenValidateRoundTrip := by
  intro s unit fn payload hidle hcap
  have hchecks := validate_requestFrame unit fn payload
  refine ⟨_, requestFrame unit fn payload, _, exec_buildRequest_eq_deliver hidle unit fn (fitsTx_of_unbounded payload hcap), rfl,
    exec_validateResponse rfl _ none, fun hclear => ⟨?_, frameBody_requestFrame unit fn payload⟩, fun hset => ?_⟩
  · rw [hclear] at hchecks
    exact congrArg some (validationResult_of_validate_eq_none hchecks)
  · rw [if_pos hset] at hchecks
    exact congrArg some (validationResult_of_validate_eq_some hchecks)

end Sys2Proof.Machine
end

section
/-! SUPPORT. What a right CRC does and does not catch: one flipped bit always, two zero bytes more never (41_frame_codec.md R112, R114). -/

namespace Sys2Proof.Machine

/-- STATUS of an exception failure is 5 for a code of the table and 6 for any other (60_exceptions.md R190). -/
theorem five_le_status_exceptionFailure (code : Byte) : 5 ≤ (exceptionFailure code).status := by
  unfold exceptionFailure
  split
  · exact Nat.le_refl 5
  · exact Nat.le_succ 5

/-- The first three checks have STATUS 2 to 4, so a frame that fails with a higher one has passed them. -/
theorem goodFrame_of_five_le_status {frame : List Byte} {f : Failure} (h : validate frame = some f) (hf : 5 ≤ f.status) :
    GoodFrame frame := by
  unfold validate at h
  split_ifs at h with hempty hshort hright
  · cases h; exact absurd hf (by decide)
  · cases h; exact absurd hf (by decide)
  · exact ⟨Nat.not_lt.1 hshort, hright⟩
  · cases h; exact absurd hf (by decide)

/-- Settles O13: the flip leaves the length and makes the trailer wrong (O6); two frames the block builds are the escape. -/
theorem anySingleBitFlipIsCrcMismatch : Obligations.AnySingleBitFlipIsCrcMismatch := by
  refine ⟨fun s frame expected i k hidle hchecks hi hk => ?_, requestFrame 1 3 [], requestFrame 2 3 [], ?_, ?_,
    validate_requestFrame 1 3 [], validate_requestFrame 2 3 []⟩
  · have ⟨hlength, hright⟩ : GoodFrame frame := by
      rcases hchecks with hvalid | ⟨code, hexception⟩
      · exact validate_eq_none hvalid
      · exact goodFrame_of_five_le_status hexception (five_le_status_exceptionFailure code)
    have hmismatch : validate (flipBit frame i k) = some .crcMismatch :=
      validate_of_trailerRight_eq_false (by rwa [flipBit_length]) (trailerRight_flipBit hright hi hk)
    exact ⟨_, exec_validateResponse hidle _ expected, overOffLink_deliver _ s,
      congrArg some (validationResult_of_validate_eq_some hmismatch)⟩
  · rw [requestFrame_length, requestFrame_length]
  · rw [requestFrame_eq_cons, requestFrame_eq_cons]
    exact fun h => absurd (List.head_eq_of_cons_eq h) (by decide)

/-- The accumulator is 0 after a right trailer, and zero bytes keep it there (41_frame_codec.md R114, 40_crc.md R86). -/
theorem trailerRight_append_zero_zero {frame : List Byte} (h : trailerRight frame = true) : trailerRight (frame ++ [0, 0]) = true := by
  have hcrc : crc16 frame = 0#16 := (crc16_eq_zero_iff_trailerRight (length_of_trailerRight h)).2 h
  rw [← crc16_eq_zero_iff_trailerRight (by simp), crc16_append_two_eq_zero_iff, hcrc]
  exact ⟨rfl, rfl⟩

/-- Check 4 looks at the second and third byte only. -/
theorem exceptionCheck_append {frame : List Byte} (h : 3 ≤ frame.length) (more : List Byte) :
    exceptionCheck (frame ++ more) = exceptionCheck frame := by
  match frame, h with
  | _ :: _ :: _ :: _, _ => rfl

/-- Two zero bytes leave all four checks passed (41_frame_codec.md R114). -/
theorem validate_append_zero_zero {frame : List Byte} (h : validate frame = none) : validate (frame ++ [0, 0]) = none := by
  have hgood : GoodFrame frame := validate_eq_none h
  have ⟨hlength, hright⟩ := hgood
  have hgood' : GoodFrame (frame ++ [0, 0]) := ⟨hlength.trans (by simp), trailerRight_append_zero_zero hright⟩
  rw [validate_of_goodFrame hgood', exceptionCheck_append (Nat.le_of_lt hlength), ← validate_of_goodFrame hgood, h]

/-- The frame that R114's example lengthens. -/
theorem validate_readRequest : validate [0x01, 0x03, 0x00, 0x00, 0x00, 0x0A, 0xC5, 0xCD] = none := by
  have hcrc : crc16 (requestBody 0x01 0x03 [0x00, 0x00, 0x00, 0x0A]) = trailerWord 0xC5 0xCD := by
    simp [requestBody, trailerWord, crc16, crcFrom, crcByteStep, crcBitSteps, crcBitStep, crcAbsorb, crcInit, crcPoly]
  exact (validate_responseFrame 0x01 0x03 [0x00, 0x00, 0x00, 0x0A] (trailerWord 0xC5 0xCD)).trans (if_pos hcrc)

/-- Settles O14: the residue stays 0 over zero bytes, and check 4 looks at the same bytes. -/
theorem twoExtraZeroBytesStillValidate : Obligations.TwoExtraZeroBytesStillValidate := by
  have hexample := validate_append_zero_zero validate_readRequest
  refine ⟨fun _ => trailerRight_append_zero_zero, fun s frame hidle hvalid => ?_, hexample, rfl⟩
  refine ⟨_, exec_validateResponse hidle _ none, ?_, frameData_append_two frame 0 0⟩
  rw [validationResult_of_validate_eq_none (validate_append_zero_zero hvalid)]
  rfl

end Sys2Proof.Machine
end

section
/-! SUPPORT. SEND_REQUEST and the typed operations are one round trip each, and the validator's failure is theirs (41_frame_codec.md R110; 42_read_ops.md R120; 60_exceptions.md R201). -/

namespace Sys2Proof.Machine

/-- A typed operation sends its request and differs from the others only in what the answer is for (42_read_ops.md R120, 43_write_ops.md R159). -/
theorem exec_of_typedRequest {i : Instr} {s : State} {fn : Byte} {payload : List Byte} (hidle : s.exchange = none)
    (h : typedRequest i = some (fn, payload)) : ∃ p, exec i s = .next (typedTransact p fn payload s) := by
  cases i with
  | readStatus r => cases h; exact ⟨_, exec_readStatus hidle r⟩
  | readAlarms r => cases h; exact ⟨_, exec_readAlarms hidle r⟩
  | readSensors r => cases h; exact ⟨_, exec_readSensors hidle r⟩
  | readConfiguration r => cases h; exact ⟨_, exec_readConfiguration hidle r⟩
  | writeSingleCoil a v => cases h; exact ⟨_, exec_writeSingleCoil hidle a v⟩
  | writeSingleRegister a v => cases h; exact ⟨_, exec_writeSingleRegister hidle a v⟩
  | writeMultipleRegisters a vs =>
    simp only [typedRequest] at h
    split_ifs at h with hcount
    cases h
    exact ⟨_, exec_writeMultipleRegisters hidle a vs hcount⟩
  | _ => cases h

/-- With a request that fits TX_CAP, SEND_REQUEST and every typed operation are one round trip (44_transaction.md R170). -/
theorem exec_eq_transact {i : Instr} {s : State} {fn : Byte} {payload : List Byte} (hidle : s.exchange = none)
    (h : i = .sendRequest fn payload ∨ typedRequest i = some (fn, payload)) (hfits : fitsTx s payload = true) :
    ∃ p, exec i s = .next (transact p fn payload s) := by
  rcases h with rfl | htyped
  · exact ⟨.raw, exec_sendRequest hidle fn payload⟩
  · obtain ⟨p, hexec⟩ := exec_of_typedRequest hidle htyped
    exact ⟨p, by rw [hexec, typedTransact_fits p fn hfits]⟩

/-- Settles O19: whatever the answer is for, the validator's failure comes before its reading. -/
theorem validatorFailuresPropagateUnchanged : Obligations.ValidatorFailuresPropagateUnchanged := by
  intro s i fn payload received f hidle hi hfits hanswers hinvalid
  obtain ⟨p, hexec⟩ := exec_eq_transact hidle hi hfits
  obtain ⟨hover, hresult⟩ := overRoundTrip_transact p fn payload hfits hanswers
  exact ⟨_, hexec, hover, by rw [hresult, answerResult_of_invalid p _ hinvalid]⟩

end Sys2Proof.Machine
end

section
/-! SUPPORT. Under a too small TX_CAP nothing is written: a typed operation does not touch the link port, SEND_REQUEST opens and closes the connection (42_read_ops.md R136, 43_write_ops.md R157, 44_transaction.md R176; log 14). -/

namespace Sys2Proof.Machine

/-- SEND_REQUEST finds out at step 2, with the connection open (44_transaction.md R170, R176). -/
theorem transact_refused {s : State} {payload : List Byte} (p : Purpose) (fn : Byte) (hfits : fitsTx s payload = false)
    (hopen : openAnswer s = .ok) :
    transact p fn payload s = raise .operandRefused (linkClosed (linkOpened s)) := by
  simp [transact, transmit, hopen, hfits]

theorem linkClosed_linkOpened_linkAfter (s : State) :
    (linkClosed (linkOpened s)).link = linkAfter s.link 1 0 0 [.opened, .closed] := by
  rw [linkClosed_linkAfter, linkOpened_linkAfter, linkAfter_linkAfter]
  rfl

/-- Settles O20: a typed operation is refused before its round trip, SEND_REQUEST within it. -/
theorem txCapRefusesBeforeAnythingIsSent : Obligations.TxCapRefusesBeforeAnythingIsSent := by
  intro s cap hidle hcap
  refine ⟨fun i fn payload htyped hsmall => ?_, fun fn payload hsmall hopen => ?_⟩
  · obtain ⟨p, hexec⟩ := exec_of_typedRequest hidle htyped
    rw [typedTransact_refused p fn (fitsTx_eq_false hcap hsmall)] at hexec
    exact ⟨_, hexec, overOffLink_deliver _ s, rfl⟩
  · have hexec := exec_sendRequest hidle fn payload
    rw [transact_refused .raw fn (fitsTx_eq_false hcap hsmall) hopen] at hexec
    exact ⟨_, hexec, over_raise _ ((kept_linkOpened s).trans (kept_linkClosed _)), rfl, linkClosed_linkOpened_linkAfter s, rfl⟩

end Sys2Proof.Machine
end

section
/-! SUPPORT. The four reads are one typed operation with four parameter sets, and what each makes of a validated response (42_read_ops.md R120 to R126, R131, R134). -/

namespace Sys2Proof.Machine

/-! ### The precondition of a decode -/

/-- R131 written out: (a), (b) and (c). -/
theorem decodeDefined_iff (resp : List Byte) (need : Nat) :
    decodeDefined resp need = true ↔
      5 ≤ resp.length ∧ ∃ n, resp[2]? = some n ∧ 3 + n.toNat ≤ resp.length - 2 ∧ need ≤ n.toNat := by
  unfold decodeDefined
  cases resp[2]? with
  | none => simp
  | some n => simp [and_assoc]

/-- The bytes a decode reads lie before the trailer (42_read_ops.md R131). -/
theorem lt_of_decodeDefined {resp : List Byte} {need i : Nat} (h : decodeDefined resp need = true) (hi : i < need) :
    3 + i < resp.length - 2 := by
  obtain ⟨-, n, -, hfits, hneed⟩ := (decodeDefined_iff resp need).1 h
  omega

theorem decodeBits_eq_none_iff (resp : List Byte) (start quantity : Word16) :
    decodeBits resp start quantity = none ↔ ¬ decodeDefined resp ((quantity.toNat + 7) / 8) = true := by
  refine ⟨fun hnone hdefined => ?_, fun h => if_neg h⟩
  obtain ⟨entries, hentries⟩ := decodeBits_isSome (start := start) hdefined
  exact nomatch hnone.symm.trans hentries

theorem decodeWords_eq_none_iff (table : ScaleTable) (resp : List Byte) (start quantity : Word16) :
    decodeWords table resp start quantity = none ↔ ¬ decodeDefined resp (2 * quantity.toNat) = true := by
  refine ⟨fun hnone hdefined => ?_, fun h => if_neg h⟩
  obtain ⟨entries, hentries⟩ := decodeWords_isSome (table := table) (start := start) hdefined
  exact nomatch hnone.symm.trans hentries

theorem interpret_bits_eq_decodeUndefined_iff (start quantity : Word16) (request : Option (List Byte)) (resp : List Byte) :
    interpret (.bits start quantity) request resp = .failed .decodeUndefined ↔
      ¬ decodeDefined resp ((quantity.toNat + 7) / 8) = true := by
  rw [← decodeBits_eq_none_iff resp start, interpret]
  cases decodeBits resp start quantity <;> simp

theorem interpret_words_eq_decodeUndefined_iff (table : ScaleTable) (start quantity : Word16) (request : Option (List Byte))
    (resp : List Byte) :
    interpret (.words table start quantity) request resp = .failed .decodeUndefined ↔
      ¬ decodeDefined resp (2 * quantity.toNat) = true := by
  rw [← decodeWords_eq_none_iff table resp start, interpret]
  cases decodeWords table resp start quantity <;> simp

/-! ### A decode reads nothing but DATA (41_frame_codec.md R108, 42_read_ops.md R134) -/

/-- Two frames of one length with the same DATA: they differ in unit id, function code and trailer at most. -/
def SameData (a b : List Byte) : Prop := a.length = b.length ∧ frameData a = frameData b

theorem SameData.symm {a b : List Byte} (h : SameData a b) : SameData b a := ⟨h.1.symm, h.2.symm⟩

/-- Byte `i` of DATA is byte `2 + i` of the frame (41_frame_codec.md R108). -/
theorem frameData_getElem? {frame : List Byte} {i : Nat} (h : 2 + i < frame.length - 2) : (frameData frame)[i]? = frame[2 + i]? := by
  rw [frameData, frameBody, List.getElem?_drop, List.getElem?_take_of_lt h]

theorem SameData.getElem?_eq {a b : List Byte} (h : SameData a b) {i : Nat} (hi : 2 + i < a.length - 2) : a[2 + i]? = b[2 + i]? := by
  obtain ⟨hlength, hdata⟩ := h
  rw [← frameData_getElem? hi, hdata, frameData_getElem? (hlength ▸ hi)]

theorem SameData.keeps_decodeDefined {a b : List Byte} (h : SameData a b) {need : Nat} (ha : decodeDefined a need = true) :
    decodeDefined b need = true := by
  obtain ⟨hlong, n, hn, hshape⟩ := (decodeDefined_iff a need).1 ha
  rw [h.getElem?_eq (i := 0) (by omega)] at hn
  exact (decodeDefined_iff b need).2 ⟨h.1 ▸ hlong, n, hn, h.1 ▸ hshape⟩

theorem SameData.decodeDefined_eq {a b : List Byte} (h : SameData a b) (need : Nat) :
    decodeDefined a need = decodeDefined b need :=
  Bool.eq_iff_iff.2 ⟨h.keeps_decodeDefined, h.symm.keeps_decodeDefined⟩

/-- Byte `i` of the announced data is the same in both frames. -/
theorem SameData.data_getElem?_eq {a b : List Byte} (h : SameData a b) {need i : Nat} (ha : decodeDefined a need = true)
    (hi : i < need) : a[3 + i]? = b[3 + i]? := by
  have hlt := lt_of_decodeDefined ha hi
  rw [show 3 + i = 2 + (i + 1) by omega] at hlt ⊢
  exact h.getElem?_eq hlt

theorem gather_congr {α : Type} {entry entry' : Nat → Option α} {n : Nat} (h : ∀ i, i < n → entry i = entry' i) :
    gather entry n = gather entry' n := by
  induction n with
  | zero => rfl
  | succ n ih => rw [gather, gather, ih fun i hi => h i (by omega), h n (by omega)]

theorem SameData.decodeBits_eq {a b : List Byte} (h : SameData a b) (start quantity : Word16) :
    decodeBits a start quantity = decodeBits b start quantity := by
  rw [decodeBits, decodeBits, ← h.decodeDefined_eq]
  split_ifs with ha
  · refine gather_congr fun i hi => ?_
    rw [bitEntry, bitEntry, h.data_getElem?_eq ha (show i / 8 < _ by omega)]
  · rfl

theorem SameData.decodeWords_eq {a b : List Byte} (h : SameData a b) (table : ScaleTable) (start quantity : Word16) :
    decodeWords table a start quantity = decodeWords table b start quantity := by
  rw [decodeWords, decodeWords, ← h.decodeDefined_eq]
  split_ifs with ha
  · refine gather_congr fun i hi => ?_
    have hhigh := h.data_getElem?_eq ha (show 2 * i < _ by omega)
    have hlow := h.data_getElem?_eq ha (show 2 * i + 1 < _ by omega)
    rw [show 3 + (2 * i + 1) = 4 + 2 * i by omega] at hlow
    rw [wordEntry, wordEntry, hhigh, hlow]
  · rfl

/-- Two frames built round one payload have the same DATA. -/
theorem sameData_requestFrame (unit unit' fn fn' : Byte) (payload : List Byte) :
    SameData (requestFrame unit fn payload) (requestFrame unit' fn' payload) := by
  refine ⟨by rw [requestFrame_length, requestFrame_length], ?_⟩
  rw [frameData, frameBody_requestFrame, frameData, frameBody_requestFrame]
  rfl

/-! ### The four reads -/

/-- The reads with their operands filled in: function code, quantity, the data bytes R131 asks for, and what the answer is for (42_read_ops.md R121 to R126). -/
inductive IsRead (r : ReadOperands) : Instr → (fn : Byte) → (quantity : Word16) → (need : Nat) → Purpose → Prop where
  | status {quantity : Word16} (h : quantity = readQuantity statusQuantity r) :
      IsRead r (.readStatus r) 0x01 quantity ((quantity.toNat + 7) / 8) (.bits (readStart r) quantity)
  | alarms {quantity : Word16} (h : quantity = readQuantity alarmsQuantity r) :
      IsRead r (.readAlarms r) 0x02 quantity ((quantity.toNat + 7) / 8) (.bits (readStart r) quantity)
  | sensors {quantity : Word16} (h : quantity = readQuantity sensorsQuantity r) :
      IsRead r (.readSensors r) 0x03 quantity (2 * quantity.toNat) (.words .sensor (readStart r) quantity)
  | configuration {quantity : Word16} (h : quantity = readQuantity configurationQuantity r) :
      IsRead r (.readConfiguration r) 0x03 quantity (2 * quantity.toNat) (.words .configuration (readStart r) quantity)

section
variable {r : ReadOperands} {i : Instr} {fn : Byte} {quantity : Word16} {need : Nat} {p : Purpose} (h : IsRead r i fn quantity need p)
include h

theorem IsRead.exec_eq {s : State} (hidle : s.exchange = none) :
    exec i s = .next (typedTransact p fn (twoWordPayload (readStart r) quantity) s) := by
  cases h with
  | status h => rw [h, exec_readStatus hidle]
  | alarms h => rw [h, exec_readAlarms hidle]
  | sensors h => rw [h, exec_readSensors hidle]
  | configuration h => rw [h, exec_readConfiguration hidle]

/-- A validated response ends the one round trip with the read's own decode of it (42_read_ops.md R120). -/
theorem IsRead.exec_answered {s : State} {received : List Byte} (hidle : s.exchange = none)
    (hfits : fitsTx s (twoWordPayload (readStart r) quantity) = true) (hanswers : LinkAnswers s received)
    (hvalid : validate received = none) :
    ∃ t, exec i s = .next t ∧
      OverRoundTrip s t (requestFrame s.unitId fn (twoWordPayload (readStart r) quantity)) received ∧
      t.result = some (interpret p (some (requestFrame s.unitId fn (twoWordPayload (readStart r) quantity))) received) := by
  have hexec := h.exec_eq hidle
  rw [typedTransact_fits p fn hfits] at hexec
  obtain ⟨hover, hresult⟩ := overRoundTrip_transact p fn _ hfits hanswers
  exact ⟨_, hexec, hover, by rw [hresult, answerResult_of_valid p _ hvalid]⟩

theorem IsRead.interpret_eq_decodeUndefined_iff (request : Option (List Byte)) (resp : List Byte) :
    interpret p request resp = .failed .decodeUndefined ↔ ¬ decodeDefined resp need = true := by
  cases h with
  | status | alarms => exact interpret_bits_eq_decodeUndefined_iff _ _ request resp
  | sensors | configuration => exact interpret_words_eq_decodeUndefined_iff _ _ _ request resp

/-- A read's result is a function of DATA; the request it is an answer to plays no part (42_read_ops.md R134). -/
theorem IsRead.interpret_eq_of_sameData {a b : List Byte} (hdata : SameData a b) (request request' : Option (List Byte)) :
    interpret p request a = interpret p request' b := by
  cases h with
  | status | alarms => rw [interpret, interpret, hdata.decodeBits_eq]
  | sensors | configuration => rw [interpret, interpret, hdata.decodeWords_eq]

end

end Sys2Proof.Machine
end

section
/-! SUPPORT. The obligations on the reads: what the decode delivers, when it is undefined, what it does not look at (42_read_ops.md R121 to R135). -/

namespace Sys2Proof.Machine

/-- Settles O21: under R131 the decode has all its entries, and entry `k` is the bit it was read from. -/
theorem bitReadsDecodeLeastSignificantFirst : Obligations.BitReadsDecodeLeastSignificantFirst := by
  intro s r i fn quantity received n hi hidle hfits hanswers hvalid hn hlong hcount hneed
  have hread : IsRead r i fn quantity ((quantity.toNat + 7) / 8) (.bits (readStart r) quantity) := by
    rcases hi with ⟨rfl, rfl, hq⟩ | ⟨rfl, rfl, hq⟩
    · exact .status hq
    · exact .alarms hq
  obtain ⟨t, hexec, hover, hresult⟩ := hread.exec_answered hidle hfits hanswers hvalid
  have hdefined := (decodeDefined_iff received _).2 ⟨hlong, n, hn, hcount, hneed⟩
  obtain ⟨entries, hdecode⟩ := decodeBits_isSome (start := readStart r) hdefined
  obtain ⟨-, hlength, hentries⟩ := (decodeBits_eq_some_iff _ _ _ _).1 hdecode
  refine ⟨t, entries, hexec, hover, by rw [hresult, interpret, hdecode], hlength, fun k hk => ?_⟩
  obtain ⟨b, hb⟩ := decodeDefined_byte (i := k / 8) hdefined (by omega)
  exact ⟨b, hb, by rw [← hentries k hk, bitEntry, hb]; rfl⟩

/-- Settles O22: under R131 the decode has all its entries, and entry `k` is the word it was read from. -/
theorem wordReadsDecodeAndScaleByAddress : Obligations.WordReadsDecodeAndScaleByAddress := by
  intro s r i table quantity received n hi hidle hfits hanswers hvalid hn hlong hcount hneed
  have hread : IsRead r i 0x03 quantity (2 * quantity.toNat) (.words table (readStart r) quantity) := by
    rcases hi with ⟨rfl, rfl, hq⟩ | ⟨rfl, rfl, hq⟩
    · exact .sensors hq
    · exact .configuration hq
  obtain ⟨t, hexec, hover, hresult⟩ := hread.exec_answered hidle hfits hanswers hvalid
  have hdefined := (decodeDefined_iff received _).2 ⟨hlong, n, hn, hcount, hneed⟩
  obtain ⟨entries, hdecode⟩ := decodeWords_isSome (table := table) (start := readStart r) hdefined
  obtain ⟨-, hlength, hentries⟩ := (decodeWords_eq_some_iff _ _ _ _ _).1 hdecode
  refine ⟨t, entries, hexec, hover, by rw [hresult, interpret, hdecode], hlength, fun k hk => ?_⟩
  obtain ⟨high, hhigh⟩ := decodeDefined_byte (i := 2 * k) hdefined (by omega)
  obtain ⟨low, hlow⟩ := decodeDefined_byte (i := 2 * k + 1) hdefined (by omega)
  rw [show 3 + (2 * k + 1) = 4 + 2 * k by omega] at hlow
  exact ⟨high, low, hhigh, hlow, by rw [← hentries k hk, wordEntry, hhigh, hlow]⟩

/-- Settles O23: the decode is all that is left after validation, and it is defined exactly under R131. -/
theorem decodeIsUndefinedExactlyOffShape : Obligations.DecodeIsUndefinedExactlyOffShape := by
  intro s r i quantity need received hi hidle hfits hanswers hvalid
  obtain ⟨fn, p, hread⟩ : ∃ fn p, IsRead r i fn quantity need p := by
    rcases hi with ⟨rfl, hq, rfl⟩ | ⟨rfl, hq, rfl⟩ | ⟨rfl, hq, rfl⟩ | ⟨rfl, hq, rfl⟩
    · exact ⟨_, _, .status hq⟩
    · exact ⟨_, _, .alarms hq⟩
    · exact ⟨_, _, .sensors hq⟩
    · exact ⟨_, _, .configuration hq⟩
  obtain ⟨t, hexec, ⟨hover, -⟩, hresult⟩ := hread.exec_answered hidle hfits hanswers hvalid
  exact ⟨t, hexec, hover, by
    rw [hresult, Option.some_inj, hread.interpret_eq_decodeUndefined_iff, decodeDefined_iff]⟩

/-- Settles O24: with bit 7 clear both frames are validated, and the decode is a function of DATA. -/
theorem readsCheckNeitherUnitNorFunction : Obligations.ReadsCheckNeitherUnitNorFunction := by
  intro s s' r i unit unit' fn fn' data hi hidle hidle' hcap hcap' hclear hclear' hanswers hanswers'
  obtain ⟨fnSent, quantity, need, p, hread⟩ : ∃ fnSent quantity need p, IsRead r i fnSent quantity need p := by
    rcases hi with rfl | rfl | rfl | rfl
    · exact ⟨_, _, _, _, .status rfl⟩
    · exact ⟨_, _, _, _, .alarms rfl⟩
    · exact ⟨_, _, _, _, .sensors rfl⟩
    · exact ⟨_, _, _, _, .configuration rfl⟩
  have hvalid : validate (requestFrame unit fn data) = none := by rw [validate_requestFrame, hclear]; rfl
  have hvalid' : validate (requestFrame unit' fn' data) = none := by rw [validate_requestFrame, hclear']; rfl
  obtain ⟨t, hexec, -, hresult⟩ := hread.exec_answered hidle (fitsTx_of_unbounded _ hcap) hanswers hvalid
  obtain ⟨t', hexec', -, hresult'⟩ := hread.exec_answered hidle' (fitsTx_of_unbounded _ hcap') hanswers' hvalid'
  exact ⟨t, t', hexec, hexec', by
    rw [hresult, hresult', hread.interpret_eq_of_sameData (sameData_requestFrame unit unit' fn fn' data)]⟩

end Sys2Proof.Machine
end

section
/-! SUPPORT. The transforms and the two scaling tables at every word and every address (42_read_ops.md R127 to R129). -/

namespace Sys2Proof.Machine

/-- A raw word past BAUD_LIST stands for itself (42_read_ops.md R127). -/
theorem applyTransform_baud_of_four_le {raw : Word16} (h : 4 ≤ raw.toNat) :
    applyTransform .baud raw = { tag := .baud, num := raw.toNat, den := 1 } := by
  rw [applyTransform, List.getElem?_eq_none (l := baudList) h]
  rfl

/-- Settles O26: each transform by its definition; only BAUD past the end of its list needs the bound. -/
theorem transformsAreExactFractions : Obligations.TransformsAreExactFractions :=
  ⟨fun _ => ⟨rfl, rfl, rfl, rfl, rfl, applyTransform_baud_of_four_le⟩, rfl, rfl, rfl, rfl, rfl, rfl, rfl, rfl⟩

/-- An address past every key of a scaling table is not in it. -/
theorem lookup_eq_none_of_keys_lt {table : List (Nat × Transform)} {bound a : Nat} (hkeys : ∀ e ∈ table, e.1 < bound)
    (ha : bound ≤ a) : table.lookup a = none :=
  List.lookup_eq_none_iff.2 fun e he => bne_iff_ne.2 ((hkeys e he).trans_le ha).ne'

/-- Past 0x23 the sensor table gives the raw integer (42_read_ops.md R128). -/
theorem transformAt_sensor_of_le {a : Nat} (h : 0x24 ≤ a) : transformAt .sensor a = .ident := by
  rw [transformAt, lookup_eq_none_of_keys_lt (by decide) h, Option.getD_none]

/-- Past 0x13 the configuration table gives the raw integer (42_read_ops.md R129). -/
theorem transformAt_configuration_of_le {a : Nat} (h : 0x14 ≤ a) : transformAt .configuration a = .ident := by
  rw [transformAt, lookup_eq_none_of_keys_lt (by decide) h, Option.getD_none]

/-- Settles O27: the addresses up to the table's last key one by one, and none of them beyond it. -/
theorem sensorScaleAtEveryAddress : Obligations.SensorScaleAtEveryAddress := by
  refine ⟨fun a => ?_, rfl, rfl⟩
  by_cases h : a < 0x24
  · revert a
    decide
  · rw [transformAt_sensor_of_le (by omega), if_neg (by omega), if_neg (by omega), if_neg (by omega), if_neg (by omega)]

/-- Settles O28: the addresses up to the table's last key one by one, and none of them beyond it. -/
theorem configScaleAtEveryAddress : Obligations.ConfigScaleAtEveryAddress := by
  refine ⟨fun a => ?_, rfl, rfl⟩
  by_cases h : a < 0x14
  · revert a
    decide
  · rw [transformAt_configuration_of_le (by omega), if_neg (by omega), if_neg (by omega), if_neg (by omega), if_neg (by omega)]

end Sys2Proof.Machine
end

section
/-! SUPPORT. The writes: what success takes of the response, and each write on every validated response (43_write_ops.md R150 to R158). -/

namespace Sys2Proof.Machine

/-! ### What success takes -/

theorem interpret_echo_same (request : List Byte) : interpret .echo (some request) request = .ok .done := if_pos rfl

theorem interpret_echo_of_ne {request resp : List Byte} (h : resp ≠ request) :
    interpret .echo (some request) resp = .failed .writeVerificationFailed :=
  if_neg fun heq => h (Option.some.inj heq).symm

theorem interpret_echoPrefix_of_take_eq {request resp : List Byte} (h : resp.take 6 = request.take 6) :
    interpret .echoPrefix (some request) resp = .ok .done :=
  if_pos (congrArg some h.symm)

theorem interpret_echoPrefix_of_take_ne {request resp : List Byte} (h : resp.take 6 ≠ request.take 6) :
    interpret .echoPrefix (some request) resp = .failed .writeVerificationFailed :=
  if_neg fun heq => h (Option.some.inj heq).symm

/-- Only the two comparisons end in success without a value, and both compare at least the first six bytes (43_write_ops.md R153, R155). -/
theorem take_six_eq_of_interpret_eq_done {p : Purpose} {request resp : List Byte}
    (h : interpret p (some request) resp = .ok .done) : resp.take 6 = request.take 6 := by
  cases p with
  | raw => cases h
  | bits start quantity =>
    rw [interpret] at h
    split at h <;> cases h
  | words table start quantity =>
    rw [interpret] at h
    split at h <;> cases h
  | echo =>
    by_contra hne
    rw [interpret_echo_of_ne fun heq => hne (by rw [heq])] at h
    cases h
  | echoPrefix =>
    by_contra hne
    rw [interpret_echoPrefix_of_take_ne hne] at h
    cases h

theorem take_six_eq_of_answerResult_eq_done {p : Purpose} {request bytes : List Byte}
    (h : answerResult p (some request) bytes = .ok .done) : bytes.take 6 = request.take 6 := by
  cases hvalid : validate bytes with
  | none => exact take_six_eq_of_interpret_eq_done (by rwa [answerResult_of_valid p _ hvalid] at h)
  | some f =>
    rw [answerResult_of_invalid p _ hvalid] at h
    cases h

/-- A typed operation that comes to success without a value was within TX_CAP, and six bytes at least of its request came back. -/
theorem take_six_eq_of_typedTransact_eq_done {p : Purpose} {fn : Byte} {payload received : List Byte} {s : State}
    (hanswers : LinkAnswers s received) (h : (typedTransact p fn payload s).result = some (.ok .done)) :
    received.take 6 = (requestFrame s.unitId fn payload).take 6 := by
  cases hfits : fitsTx s payload with
  | false =>
    rw [typedTransact_refused p fn hfits] at h
    cases h
  | true =>
    obtain ⟨-, hresult⟩ := overRoundTrip_transact p fn payload hfits hanswers
    rw [typedTransact_fits p fn hfits, hresult] at h
    exact take_six_eq_of_answerResult_eq_done (Option.some.inj h)

/-- Settles O34: the first two of the six bytes that came back are the unit id and the function code sent. -/
theorem writeSuccessMeansUnitAndFunctionMatched : Obligations.WriteSuccessMeansUnitAndFunctionMatched := by
  intro s t i fn payload received _ hidle htyped hanswers hexec hdone
  obtain ⟨p, hexec'⟩ := exec_of_typedRequest hidle htyped
  obtain rfl : t = typedTransact p fn payload s := Host.Outcome.next.inj (hexec.symm.trans hexec')
  have hsix := take_six_eq_of_typedTransact_eq_done hanswers hdone
  rw [requestFrame_eq_cons] at hsix
  have hbyte {k : Nat} (hk : k < 6) : received[k]? = (received.take 6)[k]? := (List.getElem?_take_of_lt hk).symm
  rw [hbyte (k := 0) (by decide), hbyte (k := 1) (by decide), hsix]
  exact ⟨rfl, rfl⟩

/-! ### The writes on a validated response -/

/-- A typed operation within TX_CAP on a validated response: one round trip, and the operation's own reading of the response. -/
theorem typedTransact_answered {s : State} {payload received : List Byte} (p : Purpose) (fn : Byte) (hfits : fitsTx s payload = true)
    (hanswers : LinkAnswers s received) (hvalid : validate received = none) :
    OverRoundTrip s (typedTransact p fn payload s) (requestFrame s.unitId fn payload) received ∧
      (typedTransact p fn payload s).result = some (interpret p (some (requestFrame s.unitId fn payload)) received) := by
  rw [typedTransact_fits p fn hfits, ← answerResult_of_valid p _ hvalid]
  exact overRoundTrip_transact p fn payload hfits hanswers

/-- The eight bytes of a request of two words, its CRC low byte first (30_encoding.md R50, R54 to R56). -/
theorem requestFrame_twoWordPayload (unit fn : Byte) (first second : Word16) :
    ∃ crcLow crcHigh, requestFrame unit fn (twoWordPayload first second) =
        [unit, fn, hi8 first, lo8 first, hi8 second, lo8 second, crcLow, crcHigh] ∧
      crcHigh ++ crcLow = crc16 [unit, fn, hi8 first, lo8 first, hi8 second, lo8 second] :=
  ⟨_, _, requestFrame_eq_cons unit fn _, trailerWord_lo8_hi8 _⟩

/-- Settles O29: both writes send two words and take the whole response for the comparison. -/
theorem singleWritesNeedTheWholeEcho : Obligations.SingleWritesNeedTheWholeEcho := by
  intro s i fn address word received hi hidle hcap hanswers hvalid
  have hexec : exec i s = .next (typedTransact .echo fn (twoWordPayload address word) s) := by
    rcases hi with ⟨v, rfl, rfl, rfl⟩ | ⟨rfl, rfl⟩
    · exact exec_writeSingleCoil hidle address v
    · exact exec_writeSingleRegister hidle address word
  have hfits : fitsTx s (twoWordPayload address word) = true := (fitsTx_iff s _).2 hcap
  obtain ⟨hover, hresult⟩ := typedTransact_answered .echo fn hfits hanswers hvalid
  refine ⟨_, _, hexec, hover, requestFrame_twoWordPayload s.unitId fn address word, fun heq => ?_, fun hne => ?_⟩
  · rw [hresult, heq, interpret_echo_same]
  · rw [hresult, interpret_echo_of_ne hne]

/-- Settles O31: the six bytes compared are those of the request before its byte count. -/
theorem multipleWriteComparesSixBytes : Obligations.MultipleWriteComparesSixBytes := by
  intro s start values received hmax hidle hfits hanswers hvalid
  obtain ⟨hover, hresult⟩ := typedTransact_answered .echoPrefix 0x10 hfits hanswers hvalid
  have hsix : (requestFrame s.unitId 0x10 (multiplePayload start values)).take 6 =
      [s.unitId, 0x10, hi8 start, lo8 start, 0x00, BitVec.ofNat 8 values.length] := by
    obtain ⟨crc, hframe⟩ := requestFrame_multiplePayload s.unitId start hmax
    rw [hframe]
    rfl
  rw [← hsix]
  refine ⟨_, exec_writeMultipleRegisters hidle start values hmax, hover, fun heq => ?_, fun hne => ?_⟩
  · rw [hresult, interpret_echoPrefix_of_take_eq heq]
  · rw [hresult, interpret_echoPrefix_of_take_ne hne]

/-- Settles O33: more than 127 values end in a refusal that touches nothing. -/
theorem moreThan127ValuesAreRefused : Obligations.MoreThan127ValuesAreRefused := by
  intro s start values hidle hmany
  have hbeyond : ¬ values.length ≤ writeMultipleMax := Nat.not_le.2 hmany
  exact ⟨_, exec_writeMultipleRegisters_refused hidle start values hbeyond, overOffLink_deliver _ s, rfl⟩

end Sys2Proof.Machine
end

section
/-! SUPPORT. How often one step writes and reads (43_write_ops.md R159; 44_transaction.md R173, R176, R177). -/

namespace Sys2Proof.Machine

/-- One move writes at most one frame and reads at most once: each of its eight forms is a short list of events. -/
theorem MoveEvents.writes_and_reads_at_most_once {p q : LinkPhase} {events : List LinkEvent} (h : MoveEvents p events q) :
    events.countP LinkEvent.isWrite ≤ 1 ∧ events.countP LinkEvent.isRead ≤ 1 := by
  cases h with
  | untouched => exact ⟨Nat.zero_le 1, Nat.zero_le 1⟩
  | openFailed e => exact ⟨Nat.zero_le 1, Nat.zero_le 1⟩
  | refused => exact ⟨Nat.zero_le 1, Nat.zero_le 1⟩
  | writeFailed e => exact ⟨Nat.zero_le 1, Nat.zero_le 1⟩
  | readFailed frame e => exact ⟨Nat.le_refl 1, Nat.zero_le 1⟩
  | roundTrip frame bytes => exact ⟨Nat.le_refl 1, Nat.le_refl 1⟩
  | sent frame => exact ⟨Nat.le_refl 1, Nat.zero_le 1⟩
  | received bytes => exact ⟨Nat.zero_le 1, Nat.le_refl 1⟩

/-- Settles O56: an idle step adds no event, and any other adds those of one move. -/
theorem everyStepWritesAndReadsAtMostOnce : Obligations.EveryStepWritesAndReadsAtMostOnce := by
  intro s t hstep
  rcases step_cases hstep with ⟨-, rfl⟩ | ⟨p, rest, -, hmoves⟩
  · exact ⟨[], (List.append_nil _).symm, Nat.zero_le 1, Nat.zero_le 1⟩
  · obtain ⟨events, hlog, hevents⟩ := hmoves.addsEvents
    exact ⟨events, hlog, hevents.writes_and_reads_at_most_once⟩

end Sys2Proof.Machine
end

section
/-! SUPPORT. SEND_REQUEST on a link that lets it through: one round trip, and the validator's verdict on what its one read brought (44_transaction.md R170, R173, R174, R180). -/

namespace Sys2Proof.Machine

/-- SEND_REQUEST reads nothing into a validated frame: it hands it over whole (44_transaction.md R170 step 7). -/
theorem answerResult_raw (request : Option (List Byte)) (bytes : List Byte) :
    answerResult .raw request bytes = validationResult bytes := by
  cases hvalid : validate bytes with
  | none => rw [answerResult_of_valid .raw request hvalid, validationResult_of_validate_eq_none hvalid, interpret]
  | some f => rw [answerResult_of_invalid .raw request hvalid, validationResult_of_validate_eq_some hvalid]

theorem exec_sendRequest_answered {s : State} {payload received : List Byte} (fn : Byte) (hidle : s.exchange = none)
    (hfits : fitsTx s payload = true) (hanswers : LinkAnswers s received) :
    ∃ t, exec (.sendRequest fn payload) s = .next t ∧ OverRoundTrip s t (requestFrame s.unitId fn payload) received ∧
      t.result = some (validationResult received) := by
  obtain ⟨hover, hresult⟩ := overRoundTrip_transact .raw fn payload hfits hanswers
  exact ⟨_, exec_sendRequest hidle fn payload, hover, by rw [hresult, answerResult_raw]⟩

/-- Settles O15: the frame sent is that of R100 with UNIT_ID, and one read brings at most 256 bytes. -/
theorem sendRequestIsOneRoundTrip : Obligations.SendRequestIsOneRoundTrip := by
  intro s fn payload received hidle hfits hanswers
  obtain ⟨t, hexec, hover, hresult⟩ := exec_sendRequest_answered fn hidle hfits hanswers
  rw [requestFrame_eq_cons] at hover
  exact ⟨t, hexec, hanswers.length_le, hover, hresult⟩

/-- Settles O16: both kinds of answer let the request through, the one with the first 256 bytes and the other with none. -/
theorem theReadIsCutOrEmpty : Obligations.TheReadIsCutOrEmpty := by
  intro s fn payload hidle hfits hopen hwrite
  refine ⟨fun bs hread => ?_, fun hread => ?_⟩
  · have hanswers : LinkAnswers s (bs.take 256) := ⟨hopen, hwrite, .bytes bs, hread, fun _ h => (nomatch h), rfl⟩
    obtain ⟨t, hexec, -, hresult⟩ := exec_sendRequest_answered fn hidle hfits hanswers
    exact ⟨t, hexec, hresult⟩
  · have hanswers : LinkAnswers s [] := by
      rcases hread with hread | hread
      · exact ⟨hopen, hwrite, .timeout, hread, fun _ h => (nomatch h), rfl⟩
      · exact ⟨hopen, hwrite, .peerClosed, hread, fun _ h => (nomatch h), rfl⟩
    obtain ⟨t, hexec, ⟨-, hconn, hlink⟩, hresult⟩ := exec_sendRequest_answered fn hidle hfits hanswers
    exact ⟨t, hexec, hresult, hconn, congrArg Link.log hlink⟩

end Sys2Proof.Machine
end

section
/-! SUPPORT. A link that fails: the connection that is not made, and the I/O error of the write or of the read, for the operations and for the request rows (43_write_ops.md R157; 44_transaction.md R172, R175; logs 9, 14, 21). -/

namespace Sys2Proof.Machine

/-! ### The ending of an I/O error -/

/-- Over with the connection closed and LINK_IO_ERROR's failure, after one open, one write and `reads` reads (44_transaction.md R172, R175). -/
def OverIoError (s t : State) (e : LinkErr) (reads : Nat) (events : List LinkEvent) : Prop :=
  Over s t ∧ t.conn = .closed ∧ t.link = linkAfter s.link 1 1 reads events ∧ t.result = some (.failed (ioFailure s e))

theorem overIoError_writeFailed (unit fn : Byte) (payload : List Byte) (e : LinkErr) (s : State) :
    OverIoError s (raise (ioFailure s e) (linkClosed (linkWriteFailed e (loadTx unit fn payload (linkOpened s)))))
      e 0 [.opened, .writeFailed e, .closed] := by
  have hkept := ((kept_linkOpened s).trans (kept_loadTx unit fn payload _)).trans (kept_linkWriteFailed e _)
  refine ⟨over_raise _ (hkept.trans (kept_linkClosed _)), rfl, ?_, rfl⟩
  rw [raise_link, linkClosed_linkAfter, linkWriteFailed_linkAfter, loadTx_link, linkOpened_linkAfter,
    linkAfter_linkAfter, linkAfter_linkAfter]
  rfl

theorem overIoError_readFailed (unit fn : Byte) (payload : List Byte) (e : LinkErr) (s : State) :
    OverIoError s (raise (ioFailure s e) (linkClosed (linkReadFailed e (takeRead (afterWrite unit fn payload s)))))
      e 1 [.opened, .wrote (requestFrame unit fn payload), .readFailed e, .closed] := by
  have hkept := ((kept_afterWrite unit fn payload s).trans (kept_takeRead _)).trans (kept_linkReadFailed e _)
  refine ⟨over_raise _ (hkept.trans (kept_linkClosed _)), rfl, ?_, rfl⟩
  rw [raise_link, linkClosed_linkAfter, linkReadFailed_linkAfter, takeRead_linkAfter, afterWrite_linkAfter,
    linkAfter_linkAfter, linkAfter_linkAfter, linkAfter_linkAfter]
  rfl

/-- What LINK_IO_ERROR says of the failure: ConnectionFailed with the link agent's pair by default (44_transaction.md R175). -/
theorem result_of_ioFailure {s t : State} {e : LinkErr} (h : t.result = some (.failed (ioFailure s e))) :
    (s.linkIoError = none → t.result = some (.failed (.connectionFailed e))) ∧
      (∀ f, s.linkIoError = some f → t.result = some (.failed f)) :=
  ⟨fun hdefault => by rw [h, ioFailure, hdefault], fun f hset => by rw [h, ioFailure, hset]⟩

/-! ### The operations and the request rows on a failing link -/

section
variable {s : State} {payload : List Byte} {e : LinkErr} (p : Purpose)

theorem transact_writeFailed (fn : Byte) (hfits : fitsTx s payload = true) (hopen : openAnswer s = .ok)
    (hwrite : writeAnswer s = .ioError e) :
    OverIoError s (transact p fn payload s) e 0 [.opened, .writeFailed e, .closed] := by
  have heq : transact p fn payload s =
      raise (ioFailure s e) (linkClosed (linkWriteFailed e (loadTx s.unitId fn payload (linkOpened s)))) := by
    simp [transact, transmit, hopen, hfits, hwrite]
  rw [heq]
  exact overIoError_writeFailed s.unitId fn payload e s

theorem transact_readFailed (fn : Byte) (hfits : fitsTx s payload = true) (hopen : openAnswer s = .ok)
    (hwrite : writeAnswer s = .ok) (hread : readAnswer s = .ioError e) :
    OverIoError s (transact p fn payload s) e 1
      [.opened, .wrote (requestFrame s.unitId fn payload), .readFailed e, .closed] := by
  have heq : transact p fn payload s =
      raise (ioFailure s e) (linkClosed (linkReadFailed e (takeRead (afterWrite s.unitId fn payload s)))) := by
    simp [transact, transmit, receiveFromLink, hopen, hfits, hwrite, hread, ioFailure]
  rw [heq]
  exact overIoError_readFailed s.unitId fn payload e s

theorem sendRow_refused (unit fn : Byte) (hfits : fitsTx s payload = false) :
    sendRow p unit fn payload s = raise .operandRefused s := by
  simp [sendRow, hfits]

theorem sendRow_openFailed (unit fn : Byte) (hfits : fitsTx s payload = true) (hopen : openAnswer s = .fail e) :
    sendRow p unit fn payload s = raise (.connectionFailed e) (linkOpenFailed e s) := by
  simp [sendRow, transmit, hfits, hopen]

theorem sendRow_writeFailed (unit fn : Byte) (hfits : fitsTx s payload = true) (hopen : openAnswer s = .ok)
    (hwrite : writeAnswer s = .ioError e) :
    OverIoError s (sendRow p unit fn payload s) e 0 [.opened, .writeFailed e, .closed] := by
  have heq : sendRow p unit fn payload s =
      raise (ioFailure s e) (linkClosed (linkWriteFailed e (loadTx unit fn payload (linkOpened s)))) := by
    simp [sendRow, transmit, hopen, hfits, hwrite]
  rw [heq]
  exact overIoError_writeFailed unit fn payload e s

end

/-- Settles O18: the write fails before the one read, or the read fails after the request went out. -/
theorem linkIoErrorsCloseTheConnection : Obligations.LinkIoErrorsCloseTheConnection := by
  intro s i fn payload e hidle hi hfits hopen
  obtain ⟨p, hexec⟩ := exec_eq_transact hidle hi hfits
  refine ⟨fun hwrite => ?_, fun hwrite hread => ?_⟩
  · obtain ⟨hover, hconn, hlink, hresult⟩ := transact_writeFailed p fn hfits hopen hwrite
    exact ⟨_, hexec, hover, hconn, hlink, result_of_ioFailure hresult⟩
  · obtain ⟨hover, hconn, hlink, hresult⟩ := transact_readFailed p fn hfits hopen hwrite hread
    exact ⟨_, hexec, hover, hconn, hlink, result_of_ioFailure hresult⟩

/-- Settles O36: the six request rows are one sending half, and it fails in these three ways. -/
theorem requestRowsFailLikeTheirOperations : Obligations.RequestRowsFailLikeTheirOperations := by
  intro s i frame hencode hwf hidle
  obtain ⟨p, unit, fn, payload, rfl, -, hexec⟩ := exec_of_encode_eq_req hencode hwf hidle
  rw [requestFrame_length, ← fitsTx_iff]
  refine ⟨fun cap hcap hsmall => ?_, fun hfits => ⟨fun e hopen => ?_, fun e hopen hwrite => ?_⟩⟩
  · rw [sendRow_refused p unit fn (fitsTx_eq_false hcap hsmall)] at hexec
    exact ⟨_, hexec, overOffLink_deliver _ s, rfl⟩
  · rw [sendRow_openFailed p unit fn hfits hopen] at hexec
    exact ⟨_, hexec, over_raise _ (kept_linkOpenFailed e s), rfl, linkOpenFailed_linkAfter e s, rfl⟩
  · exact ⟨_, hexec, sendRow_writeFailed p unit fn hfits hopen hwrite⟩

end Sys2Proof.Machine
end

section
/-! SUPPORT. An operation in one step and its exchange in two: the request row, then the received bytes (44_transaction.md R170; logs 9, 10, 11). -/

namespace Sys2Proof.Machine

/-- What two endings of one operation have in common: the frame is the same on both sides. -/
theorem Over.over_of_over {s t v : State} (ht : Over s t) (hv : Over s v) : Over t v := by
  obtain ⟨⟨hunit, hhost, hport, htimeout, hcap, hio⟩, hpresented, -, -⟩ := ht
  obtain ⟨⟨hunit', hhost', hport', htimeout', hcap', hio'⟩, hpresented', hidle, hdead⟩ := hv
  exact ⟨⟨hunit'.trans hunit.symm, hhost'.trans hhost.symm, hport'.trans hport.symm, htimeout'.trans htimeout.symm,
    hcap'.trans hcap.symm, hio'.trans hio.symm⟩, hpresented'.trans hpresented.symm, hidle, hdead⟩

/-- The end of an answered exchange, whether run in one step or in two. Of the link port only the record: a presented answer uses up none of the link agent's (log 10). -/
def Exchanged (s t : State) (p : Purpose) (request received : List Byte) : Prop :=
  Over s t ∧ t.conn = .closed ∧ t.link.log = s.link.log ++ [.opened, .wrote request, .read received, .closed] ∧
    t.result = some (answerResult p (some request) received)

theorem exchanged_typedTransact {s : State} {payload received : List Byte} (p : Purpose) (fn : Byte)
    (hfits : fitsTx s payload = true) (hanswers : LinkAnswers s received) :
    Exchanged s (typedTransact p fn payload s) p (requestFrame s.unitId fn payload) received := by
  obtain ⟨⟨hover, hconn, hlink⟩, hresult⟩ := overRoundTrip_transact p fn payload hfits hanswers
  rw [typedTransact_fits p fn hfits]
  exact ⟨hover, hconn, congrArg Link.log hlink, hresult⟩

/-- Bytes that one read can deliver, presented after the request row, end its exchange. -/
theorem exchanged_sendRow_rsp {s : State} {payload received : List Byte} (p : Purpose) (unit fn : Byte)
    (hfits : fitsTx s payload = true) (hanswers : LinkAnswers s received) :
    ∃ v, runPresented (.rsp received) (sendRow p unit fn payload s) = .next v ∧
      Exchanged s v p (requestFrame unit fn payload) received := by
  have ⟨hopen, hwrite, _⟩ := hanswers
  rw [sendRow_sent p unit fn hfits hopen hwrite, runPresented_rsp, receiveRow_inFlight received rfl,
    List.take_of_length_le hanswers.length_le]
  refine ⟨_, rfl, over_receive p received (kept_afterWrite unit fn payload s), by rw [receive_eq], ?_, by rw [receive_eq]; rfl⟩
  rw [receive_log, afterWrite_linkAfter]
  exact List.append_assoc _ _ _

theorem Exchanged.agree {s t v : State} {p : Purpose} {request received : List Byte} (ht : Exchanged s t p request received)
    (hv : Exchanged s v p request received) :
    v.result = t.result ∧ v.conn = t.conn ∧ v.link.log = t.link.log ∧ Over t v := by
  obtain ⟨hover, hconn, hlog, hresult⟩ := ht
  obtain ⟨hover', hconn', hlog', hresult'⟩ := hv
  exact ⟨hresult'.trans hresult.symm, hconn'.trans hconn.symm, hlog'.trans hlog.symm, hover.over_of_over hover'⟩

/-- An operation and a request row that send the same request for the same purpose agree, once its answer is in. -/
theorem twoStep_agrees {s : State} {i row : Instr} {payload received : List Byte} {p : Purpose} {fn : Byte}
    (hexec : exec i s = .next (typedTransact p fn payload s)) (hrow : exec row s = .next (sendRow p s.unitId fn payload s))
    (hfits : fitsTx s payload = true) (hanswers : LinkAnswers s received) :
    ∃ t u v, exec i s = .next t ∧ exec row s = .next u ∧ runPresented (.rsp received) u = .next v ∧
      v.result = t.result ∧ v.conn = t.conn ∧ v.link.log = t.link.log ∧ Over t v := by
  obtain ⟨v, hrun, hv⟩ := exchanged_sendRow_rsp p s.unitId fn hfits hanswers
  exact ⟨_, _, v, hexec, hrow, hrun, (exchanged_typedTransact p fn hfits hanswers).agree hv⟩

/-- Settles O40: each operation and its row send one request for one purpose; a 0x03 row has the purpose of one of two operations. -/
theorem twoStepExchangeMatchesTheOperation : Obligations.TwoStepExchangeMatchesTheOperation := by
  intro s received hidle hcap hanswers
  have hfits (payload : List Byte) : fitsTx s payload = true := fitsTx_of_unbounded payload hcap
  refine ⟨fun i row hrows => ?_, fun a q => ?_⟩
  · rcases hrows with ⟨r, rfl, rfl⟩ | ⟨r, rfl, rfl⟩ | ⟨a, v, rfl, rfl⟩ | ⟨a, v, rfl, rfl⟩ | ⟨a, vs, rfl, rfl, hcount⟩
    · exact twoStep_agrees (exec_readStatus hidle r) (exec_reqRead01 hidle s.unitId _ _) (hfits _) hanswers
    · exact twoStep_agrees (exec_readAlarms hidle r) (exec_reqRead02 hidle s.unitId _ _) (hfits _) hanswers
    · exact twoStep_agrees (exec_writeSingleCoil hidle a v) (exec_reqWriteCoil05 hidle s.unitId a v) (hfits _) hanswers
    · exact twoStep_agrees (exec_writeSingleRegister hidle a v) (exec_reqWriteReg06 hidle s.unitId a v) (hfits _) hanswers
    · exact twoStep_agrees (exec_writeMultipleRegisters hidle a vs hcount)
        (exec_reqWriteMulti10 hidle s.unitId a vs hcount) (hfits _) hanswers
  · obtain ⟨-, -, hlog, hresult⟩ := exchanged_typedTransact (.words .sensor a q) 0x03 (hfits (twoWordPayload a q)) hanswers
    obtain ⟨-, -, hlog', hresult'⟩ :=
      exchanged_typedTransact (.words .configuration a q) 0x03 (hfits (twoWordPayload a q)) hanswers
    obtain ⟨v, hrun, -, -, hlogRow, hresultRow⟩ := exchanged_sendRow_rsp
      (.words (Config.wireTableDraw s.link.openDraws) a q) s.unitId 0x03 (hfits (twoWordPayload a q)) hanswers
    refine ⟨_, _, _, v, exec_readSensors hidle (.both a q), exec_readConfiguration hidle (.both a q),
      exec_reqRead03 hidle s.unitId a q, hrun, ?_, hlogRow.trans hlog.symm, hlogRow.trans hlog'.symm⟩
    cases htable : Config.wireTableDraw s.link.openDraws with
    | sensor => exact .inl (by rw [hresultRow, htable]; exact hresult.symm)
    | configuration => exact .inr (by rw [hresultRow, htable]; exact hresult'.symm)

end Sys2Proof.Machine
end

section
/-! SUPPORT. No operation of the host is left without a result (44_transaction.md R179; 60_exceptions.md R193, R194, R199). -/

namespace Sys2Proof.Machine

/-- An operation that only delivers a result has ended with it. -/
theorem ended_deliver_idle {s : State} {r : Result} (hidle : s.exchange = none) (hgood : GoodResult r) : Ended s (deliver r s) :=
  ended_deliver (.refl s) (.inl ⟨hidle, rfl⟩) hgood

theorem typedTransact_ended {s : State} (p : Purpose) (fn : Byte) (payload : List Byte) (hidle : s.exchange = none) :
    Ended s (typedTransact p fn payload s) := by
  cases hfits : fitsTx s payload with
  | true =>
    rw [typedTransact_fits p fn hfits]
    exact transact_ended p fn payload hidle
  | false =>
    rw [typedTransact_refused p fn hfits]
    exact ended_deliver_idle hidle trivial

/-- Every operation of the host answers a next state in which it has ended, whatever the link agent answers. -/
theorem exec_cmd_ended {s : State} {i : Instr} (hcmd : (encode i).space = .cmd) (hidle : s.exchange = none) :
    ∃ t, exec i s = .next t ∧ Ended s t := by
  rw [space_encode] at hcmd
  cases i with
  | crc16 bytes => exact ⟨_, exec_crc16_eq_deliver hidle bytes, ended_deliver_idle hidle trivial⟩
  | buildRequest unit fn payload =>
    cases hfits : fitsTx s payload with
    | true =>
      exact ⟨_, exec_buildRequest_eq_deliver hidle unit fn hfits,
        ended_deliver_idle hidle (goodFrame_requestFrame unit fn payload)⟩
    | false => exact ⟨_, exec_buildRequest_refused hidle unit fn payload hfits, ended_deliver_idle hidle trivial⟩
  | validateResponse frame expected =>
    exact ⟨_, exec_validateResponse hidle frame expected, ended_deliver_idle hidle (goodResult_validationResult frame)⟩
  | sendRequest fn payload => exact ⟨_, exec_sendRequest hidle fn payload, transact_ended _ _ _ hidle⟩
  | readStatus r => exact ⟨_, exec_readStatus hidle r, typedTransact_ended _ _ _ hidle⟩
  | readAlarms r => exact ⟨_, exec_readAlarms hidle r, typedTransact_ended _ _ _ hidle⟩
  | readSensors r => exact ⟨_, exec_readSensors hidle r, typedTransact_ended _ _ _ hidle⟩
  | readConfiguration r => exact ⟨_, exec_readConfiguration hidle r, typedTransact_ended _ _ _ hidle⟩
  | writeSingleCoil a v => exact ⟨_, exec_writeSingleCoil hidle a v, typedTransact_ended _ _ _ hidle⟩
  | writeSingleRegister a v => exact ⟨_, exec_writeSingleRegister hidle a v, typedTransact_ended _ _ _ hidle⟩
  | writeMultipleRegisters a vs =>
    by_cases hcount : vs.length ≤ writeMultipleMax
    · exact ⟨_, exec_writeMultipleRegisters hidle a vs hcount, typedTransact_ended _ _ _ hidle⟩
    · exact ⟨_, exec_writeMultipleRegisters_refused hidle a vs hcount, ended_deliver_idle hidle trivial⟩
  | _ => nomatch hcmd

/-- Settles O57: an operation that has ended has a result and is over. -/
theorem everyOperationOwesAResult : Obligations.EveryOperationOwesAResult := by
  intro s i hcmd hidle
  obtain ⟨t, hexec, hover, -, r, hresult, -⟩ := exec_cmd_ended hcmd hidle
  exact ⟨t, r, hexec, hover, hresult⟩

end Sys2Proof.Machine
end

section
/-! SUPPORT. The exception codes: what EXC_CODE, STATUS and the text show of each (60_exceptions.md R190, R195; 41_frame_codec.md R106). -/

namespace Sys2Proof.Machine

/-! ### The code table -/

theorem excOfCode_excCode (e : ModbusExc) : excOfCode (excCode e) = some e := by
  cases e <;> rfl

/-- Whatever exception is found under a code has that code. -/
theorem excCode_of_excOfCode_eq_some {code : Byte} {e : ModbusExc} (h : excOfCode code = some e) : excCode e = code := by
  have hmem : (code, e) ∈ excTable := by
    obtain ⟨before, after, htable, -⟩ := List.lookup_eq_some_iff.1 h
    rw [htable]
    exact List.mem_append_right before List.mem_cons_self
  have hall : ∀ entry ∈ excTable, excCode entry.2 = entry.1 := by decide
  exact hall (code, e) hmem

/-- The table has six codes and no other (60_exceptions.md R195). -/
theorem excOfCode_eq_none {code : Byte} (h : code ∉ [0x01, 0x02, 0x03, 0x04, 0x06, 0x0C]) : excOfCode code = none := by
  refine List.lookup_eq_none_iff.2 fun entry hentry => bne_iff_ne.2 fun heq => h ?_
  rw [heq]
  exact List.mem_map_of_mem (f := Prod.fst) hentry

theorem exceptionFailure_excCode (e : ModbusExc) : exceptionFailure (excCode e) = .modbusException e := by
  rw [exceptionFailure, excOfCode_excCode]

theorem exceptionFailure_of_not_mem {code : Byte} (h : code ∉ [0x01, 0x02, 0x03, 0x04, 0x06, 0x0C]) :
    exceptionFailure code = .unknownModbusException code := by
  rw [exceptionFailure, excOfCode_eq_none h]

/-! ### The result registers of an exception failure -/

section
variable {t : State} {code : Byte} (hresult : t.result = some (.failed (exceptionFailure code)))
include hresult

/-- EXC_CODE is the code that came, known or not. -/
theorem excCode_of_exceptionFailure : t.excCode = some code := by
  cases hcode : excOfCode code with
  | none => rw [State.excCode, hresult, exceptionFailure, hcode]
  | some e => rw [State.excCode, hresult, exceptionFailure, hcode, ← excCode_of_excOfCode_eq_some hcode]

theorem status_and_excText_of_known (e : ModbusExc) (hcode : code = excCode e) :
    t.status = some 5 ∧ t.excText = some (excText e) := by
  rw [hcode, exceptionFailure_excCode] at hresult
  exact ⟨by rw [State.status, hresult]; rfl, by rw [State.excText, hresult]⟩

theorem status_and_excText_of_unknown (h : code ∉ [0x01, 0x02, 0x03, 0x04, 0x06, 0x0C]) :
    t.result = some (.failed (.unknownModbusException code)) ∧ t.status = some 6 ∧ t.excText = none := by
  rw [exceptionFailure_of_not_mem h] at hresult
  exact ⟨hresult, by rw [State.status, hresult]; rfl, by rw [State.excText, hresult]⟩

end

/-- A built frame with bit 7 of its function code set is the exception of its first payload byte (41_frame_codec.md R106, R111). -/
theorem validate_exceptionFrame (unit code : Byte) (function : BitVec 7) :
    validate (requestFrame unit (exceptionFunction function) [code]) = some (exceptionFailure code) := by
  rw [validate_requestFrame, exceptionFunction_getLsbD_seven]
  rfl

/-- Settles O10: check 4 makes the result the failure of the code, and the registers are views of it. -/
theorem exceptionCodesFollowTheTable : Obligations.ExceptionCodesFollowTheTable := by
  intro s unit code function hidle
  refine ⟨_, exec_validateResponse hidle _ none, ?_⟩
  rw [validationResult_of_validate_eq_some (validate_exceptionFrame unit code function)]
  have hresult : (deliver (.failed (exceptionFailure code)) s).result = some (.failed (exceptionFailure code)) := rfl
  exact ⟨excCode_of_exceptionFailure hresult,
    status_and_excText_of_known hresult .illegalFunction,
    status_and_excText_of_known hresult .illegalDataAddress,
    status_and_excText_of_known hresult .illegalDataValue,
    status_and_excText_of_known hresult .slaveDeviceFailure,
    status_and_excText_of_known hresult .slaveDeviceBusy,
    status_and_excText_of_known hresult .crcCheckFailure,
    status_and_excText_of_unknown hresult⟩

end Sys2Proof.Machine
end

section
/-! SUPPORT. The connection that is not made, and the two ways of doing nothing: a response nobody waits for, and no item at all (60_exceptions.md R191, R200, R201, R203; 44_transaction.md R172, R175). -/

namespace Sys2Proof.Machine

/-- The round trip ends before its frame is built (44_transaction.md R170, R172). -/
theorem transact_openFailed {s : State} {e : LinkErr} (p : Purpose) (fn : Byte) (payload : List Byte) (hopen : openAnswer s = .fail e) :
    transact p fn payload s = raise (.connectionFailed e) (linkOpenFailed e s) := by
  simp [transact, transmit, hopen]

/-- Settles O17: SEND_REQUEST and the seven typed operations are one round trip, which fails at its open. -/
theorem connectionFailedComesFirstAndSendsNothing : Obligations.ConnectionFailedComesFirstAndSendsNothing := by
  intro s i fn payload e hidle hi hfits hopen
  obtain ⟨p, hexec⟩ := exec_eq_transact hidle hi hfits
  rw [transact_openFailed p fn payload hopen] at hexec
  exact ⟨_, hexec, over_raise _ (kept_linkOpenFailed e s), rfl, rfl, rfl, linkOpenFailed_linkAfter e s⟩

/-- Settles O38: a response row is received as its frame, and without a request in flight the frame is ignored. -/
theorem unsolicitedResponsesHaveNoEffect : Obligations.UnsolicitedResponsesHaveNoEffect := by
  intro s i frame hencode hidle
  rw [exec_of_encode_eq_rsp hencode, receiveRow_idle frame hidle]

theorem takePresented_of_idle {s : State} (h : s.presented = []) : takePresented s = none := by
  simp only [takePresented, h]

/-- Settles O42: there is no item to take. -/
theorem idleStepChangesNothing : Obligations.IdleStepChangesNothing := by
  intro s hidle
  simp only [step, takePresented_of_idle hidle]

end Sys2Proof.Machine
end

section
/-! SUPPORT. A destroyed client is absent: nothing of it is left to present to or to run (70_reset_and_hazards.md R222, log 30). -/

namespace Sys2Proof.Machine

@[simp] theorem Client.destroy_eq_absent (c : Client) : c.destroy = .absent := by
  cases c with
  | absent => rfl
  | live s => rfl

/-- Settles O51: a destroyed client is absent, and an absent client neither takes an item nor steps. -/
theorem destroyedClientsTakeNothing : Obligations.DestroyedClientsTakeNothing := by
  intro c p
  rw [c.destroy_eq_absent]
  exact ⟨rfl, rfl⟩

end Sys2Proof.Machine
end

section
/-! SUPPORT. An operation of the host forgets the past: its result and its link events are those of any other idle state with the same UNIT_ID, parameters and link answers (10_state.md R24; 60_exceptions.md R194; 70_reset_and_hazards.md R221). -/

namespace Sys2Proof.Machine

/-- The two states agree on all that an operation may look at: UNIT_ID, the two parameters and the link agent's coming answers (70_reset_and_hazards.md R221). -/
structure Alike (s s' : State) : Prop where
  unitId : s'.unitId = s.unitId
  txCap : s'.txCap = s.txCap
  linkIoError : s'.linkIoError = s.linkIoError
  opening : openAnswer s' = openAnswer s
  writing : writeAnswer s' = writeAnswer s
  reading : readAnswer s' = readAnswer s

/-- From `s` to `t` and from `s'` to `t'` the same result came out and the same events were recorded. -/
def SameOutcome (s s' t t' : State) : Prop :=
  t'.result = t.result ∧ ∃ events, t.link.log = s.link.log ++ events ∧ t'.link.log = s'.link.log ++ events

/-! ### What alike states decide alike -/

section
variable {s s' : State} (h : Alike s s')
include h

theorem Alike.fitsTx_eq (payload : List Byte) : fitsTx s' payload = fitsTx s payload := by
  simp only [fitsTx, h.txCap]

theorem Alike.ioFailure_eq (e : LinkErr) : ioFailure s' e = ioFailure s e := by
  simp only [ioFailure, h.linkIoError]

theorem Alike.linkAnswers {received : List Byte} (hanswers : LinkAnswers s received) : LinkAnswers s' received := by
  obtain ⟨hopen, hwrite, a, hread, hok, hbytes⟩ := hanswers
  exact ⟨h.opening.trans hopen, h.writing.trans hwrite, a, h.reading.trans hread, hok, hbytes⟩

end

/-! ### Outcomes that are the same -/

theorem sameOutcome_deliver (r : Result) (s s' : State) : SameOutcome s s' (deliver r s) (deliver r s') :=
  ⟨rfl, [], by simp, by simp⟩

theorem sameOutcome_of_linkAfter {s s' t t' : State} {o w r : Nat} {events : List LinkEvent}
    (hlink : t.link = linkAfter s.link o w r events) (hlink' : t'.link = linkAfter s'.link o w r events)
    (hresult : t'.result = t.result) : SameOutcome s s' t t' :=
  ⟨hresult, events, by rw [hlink]; rfl, by rw [hlink']; rfl⟩

/-- An I/O error of the link is reported alike (44_transaction.md R175). -/
theorem OverIoError.sameOutcome {s s' t t' : State} {e : LinkErr} {reads : Nat} {events : List LinkEvent}
    (ht : OverIoError s t e reads events) (ht' : OverIoError s' t' e reads events) (h : Alike s s') : SameOutcome s s' t t' := by
  obtain ⟨-, -, hlink, hresult⟩ := ht
  obtain ⟨-, -, hlink', hresult'⟩ := ht'
  exact sameOutcome_of_linkAfter hlink hlink' (by rw [hresult', hresult, h.ioFailure_eq])

/-! ### The round trip and the typed operations -/

/-- The round trip ends in the same one of its five ways (44_transaction.md R170, R172 to R176). -/
theorem transact_sameOutcome {s s' : State} (p : Purpose) (fn : Byte) (payload : List Byte) (h : Alike s s') :
    SameOutcome s s' (transact p fn payload s) (transact p fn payload s') := by
  have hfits' := h.fitsTx_eq payload
  rcases transact_cases p fn payload s with
    ⟨e, hopen, heq⟩ | ⟨hopen, hfits, heq⟩ | ⟨e, hopen, hfits, hwrite, -⟩ | ⟨e, hopen, hfits, hwrite, hread, -⟩ |
      ⟨received, hfits, hanswers, -⟩
  · rw [heq, transact_openFailed p fn payload (h.opening.trans hopen)]
    exact sameOutcome_of_linkAfter (linkOpenFailed_linkAfter e s) (linkOpenFailed_linkAfter e s') rfl
  · rw [heq, transact_refused p fn (hfits'.trans hfits) (h.opening.trans hopen)]
    exact sameOutcome_of_linkAfter (linkClosed_linkOpened_linkAfter s) (linkClosed_linkOpened_linkAfter s') rfl
  · exact (transact_writeFailed p fn hfits hopen hwrite).sameOutcome
      (transact_writeFailed p fn (hfits'.trans hfits) (h.opening.trans hopen) (h.writing.trans hwrite)) h
  · have hfailed' := transact_readFailed p fn (hfits'.trans hfits) (h.opening.trans hopen) (h.writing.trans hwrite)
      (h.reading.trans hread)
    rw [h.unitId] at hfailed'
    exact (transact_readFailed p fn hfits hopen hwrite hread).sameOutcome hfailed' h
  · obtain ⟨⟨-, -, hlink⟩, hresult⟩ := overRoundTrip_transact p fn payload hfits hanswers
    obtain ⟨⟨-, -, hlink'⟩, hresult'⟩ := overRoundTrip_transact p fn payload (hfits'.trans hfits) (h.linkAnswers hanswers)
    rw [h.unitId] at hlink' hresult'
    exact sameOutcome_of_linkAfter hlink hlink' (hresult'.trans hresult.symm)

theorem typedTransact_sameOutcome {s s' : State} (p : Purpose) (fn : Byte) (payload : List Byte) (h : Alike s s') :
    SameOutcome s s' (typedTransact p fn payload s) (typedTransact p fn payload s') := by
  cases hfits : fitsTx s payload with
  | true =>
    rw [typedTransact_fits p fn hfits, typedTransact_fits p fn ((h.fitsTx_eq payload).trans hfits)]
    exact transact_sameOutcome p fn payload h
  | false =>
    rw [typedTransact_refused p fn hfits, typedTransact_refused p fn ((h.fitsTx_eq payload).trans hfits)]
    exact sameOutcome_deliver _ s s'

/-! ### The eleven operations -/

/-- From alike idle states every operation of the host has the same outcome. -/
theorem exec_cmd_sameOutcome {s s' : State} {i : Instr} (hcmd : (encode i).space = .cmd) (hidle : s.exchange = none)
    (hidle' : s'.exchange = none) (h : Alike s s') :
    ∃ t t', exec i s = .next t ∧ exec i s' = .next t' ∧ SameOutcome s s' t t' := by
  rw [space_encode] at hcmd
  cases i with
  | crc16 bytes =>
    exact ⟨_, _, exec_crc16_eq_deliver hidle bytes, exec_crc16_eq_deliver hidle' bytes, sameOutcome_deliver _ s s'⟩
  | buildRequest unit fn payload =>
    have hfits' := h.fitsTx_eq payload
    cases hfits : fitsTx s payload with
    | true =>
      exact ⟨_, _, exec_buildRequest_eq_deliver hidle unit fn hfits,
        exec_buildRequest_eq_deliver hidle' unit fn (hfits'.trans hfits), sameOutcome_deliver _ s s'⟩
    | false =>
      exact ⟨_, _, exec_buildRequest_refused hidle unit fn payload hfits,
        exec_buildRequest_refused hidle' unit fn payload (hfits'.trans hfits), sameOutcome_deliver _ s s'⟩
  | validateResponse frame expected =>
    exact ⟨_, _, exec_validateResponse hidle frame expected, exec_validateResponse hidle' frame expected,
      sameOutcome_deliver _ s s'⟩
  | sendRequest fn payload =>
    exact ⟨_, _, exec_sendRequest hidle fn payload, exec_sendRequest hidle' fn payload, transact_sameOutcome _ _ _ h⟩
  | readStatus r => exact ⟨_, _, exec_readStatus hidle r, exec_readStatus hidle' r, typedTransact_sameOutcome _ _ _ h⟩
  | readAlarms r => exact ⟨_, _, exec_readAlarms hidle r, exec_readAlarms hidle' r, typedTransact_sameOutcome _ _ _ h⟩
  | readSensors r => exact ⟨_, _, exec_readSensors hidle r, exec_readSensors hidle' r, typedTransact_sameOutcome _ _ _ h⟩
  | readConfiguration r =>
    exact ⟨_, _, exec_readConfiguration hidle r, exec_readConfiguration hidle' r, typedTransact_sameOutcome _ _ _ h⟩
  | writeSingleCoil a v =>
    exact ⟨_, _, exec_writeSingleCoil hidle a v, exec_writeSingleCoil hidle' a v, typedTransact_sameOutcome _ _ _ h⟩
  | writeSingleRegister a v =>
    exact ⟨_, _, exec_writeSingleRegister hidle a v, exec_writeSingleRegister hidle' a v, typedTransact_sameOutcome _ _ _ h⟩
  | writeMultipleRegisters a vs =>
    by_cases hcount : vs.length ≤ writeMultipleMax
    · exact ⟨_, _, exec_writeMultipleRegisters hidle a vs hcount, exec_writeMultipleRegisters hidle' a vs hcount,
        typedTransact_sameOutcome _ _ _ h⟩
    · exact ⟨_, _, exec_writeMultipleRegisters_refused hidle a vs hcount,
        exec_writeMultipleRegisters_refused hidle' a vs hcount, sameOutcome_deliver _ s s'⟩
  | _ => nomatch hcmd

/-- Settles O58: the hypotheses say that the two states are alike. -/
theorem operationsForgetThePast : Obligations.OperationsForgetThePast := by
  intro s s' i hcmd hidle hidle' hunit hcap hio hopen hwrite hread
  obtain ⟨t, t', hexec, hexec', hresult, events, hlog, hlog'⟩ :=
    exec_cmd_sameOutcome hcmd hidle hidle' ⟨hunit, hcap, hio, hopen, hwrite, hread⟩
  exact ⟨t, t', events, hexec, hexec', hresult, hlog, hlog'⟩

end Sys2Proof.Machine
end
